-- ==== Sys2Proof/Word.lean ====
section
/-! DEFINITION. The word types of the machine (00_scope.md R7): every datum is one byte, every CPU address
is 16 bits. -/

namespace Sys2Proof

/-- `u8` of 00_scope.md R7: one datum, one register other than the program counter. -/
abbrev Byte := BitVec 8

/-- `u16` of 00_scope.md R7: an address of the CPU bus (20_memory.md R80). -/
abbrev Addr := BitVec 16

end Sys2Proof
end

