-- ==== Sys2Proof/Syntax.lean ====
section
/-! DEFINITION. The instruction syntax: one constructor per row of spec/opcode_table.json, that is one per
opcode byte (30_encoding.md R130, R136). A constructor is named after its mnemonic and addressing mode; the
unofficial NOPs and the second SBC immediate carry their opcode byte in the name. The 25 rows of the one mnemonic
UNMAPPED share the constructor `unmapped`, which carries the row's opcode byte (Lean's runtime allows an
inductive 244 constructors, and the table has 256 rows). The arguments are the operand as 30_encoding.md R133 assembles it: `b` an immediate value or a zero-page byte,
`d` a branch displacement byte, `w` the little-endian 16-bit operand. -/

namespace Sys2Proof

/-- The 256 opcode slots (30_encoding.md R131, R135 to R138): 151 official, 80 mapped unofficial and 25
unmapped. -/
inductive Instr where
  /-- 0x00 BRK implied (R285) -/
  | brk
  /-- 0x01 ORA indexIndirect (R211) -/
  | oraIndexIndirect (b : Byte)
  /-- 0x03 SLO indexIndirect (R301) -/
  | sloIndexIndirect (b : Byte)
  /-- 0x04 NOP zeropage (R311) -/
  | nop04 (b : Byte)
  /-- 0x05 ORA zeropage (R211) -/
  | oraZeropage (b : Byte)
  /-- 0x06 ASL zeropage (R213) -/
  | aslZeropage (b : Byte)
  /-- 0x07 SLO zeropage (R301) -/
  | sloZeropage (b : Byte)
  /-- 0x08 PHP implied (R262) -/
  | php
  /-- 0x09 ORA immediate (R211) -/
  | oraImmediate (b : Byte)
  /-- 0x0A ASL accumulator (R213) -/
  | aslAccumulator
  /-- 0x0C NOP absolute (R313) -/
  | nop0C (w : Addr)
  /-- 0x0D ORA absolute (R211) -/
  | oraAbsolute (w : Addr)
  /-- 0x0E ASL absolute (R213) -/
  | aslAbsolute (w : Addr)
  /-- 0x0F SLO absolute (R301) -/
  | sloAbsolute (w : Addr)
  /-- 0x10 BPL relative (R270) -/
  | bpl (d : Byte)
  /-- 0x11 ORA indirectIndex (R211) -/
  | oraIndirectIndex (b : Byte)
  /-- 0x13 SLO indirectIndex (R301) -/
  | sloIndirectIndex (b : Byte)
  /-- 0x14 NOP zeropageX (R312) -/
  | nop14 (b : Byte)
  /-- 0x15 ORA zeropageX (R211) -/
  | oraZeropageX (b : Byte)
  /-- 0x16 ASL zeropageX (R213) -/
  | aslZeropageX (b : Byte)
  /-- 0x17 SLO zeropageX (R301) -/
  | sloZeropageX (b : Byte)
  /-- 0x18 CLC implied (R278) -/
  | clc
  /-- 0x19 ORA absoluteY (R211) -/
  | oraAbsoluteY (w : Addr)
  /-- 0x1A NOP implied (R309) -/
  | nop1A
  /-- 0x1B SLO absoluteY (R301) -/
  | sloAbsoluteY (w : Addr)
  /-- 0x1C NOP absoluteX (R314) -/
  | nop1C (w : Addr)
  /-- 0x1D ORA absoluteX (R211) -/
  | oraAbsoluteX (w : Addr)
  /-- 0x1E ASL absoluteX (R213) -/
  | aslAbsoluteX (w : Addr)
  /-- 0x1F SLO absoluteX (R301) -/
  | sloAbsoluteX (w : Addr)
  /-- 0x20 JSR absolute (R266) -/
  | jsr (w : Addr)
  /-- 0x21 AND indexIndirect (R210) -/
  | andIndexIndirect (b : Byte)
  /-- 0x23 RLA indexIndirect (R302) -/
  | rlaIndexIndirect (b : Byte)
  /-- 0x24 BIT zeropage (R217) -/
  | bitZeropage (b : Byte)
  /-- 0x25 AND zeropage (R210) -/
  | andZeropage (b : Byte)
  /-- 0x26 ROL zeropage (R215) -/
  | rolZeropage (b : Byte)
  /-- 0x27 RLA zeropage (R302) -/
  | rlaZeropage (b : Byte)
  /-- 0x28 PLP implied (R263) -/
  | plp
  /-- 0x29 AND immediate (R210) -/
  | andImmediate (b : Byte)
  /-- 0x2A ROL accumulator (R215) -/
  | rolAccumulator
  /-- 0x2C BIT absolute (R217) -/
  | bitAbsolute (w : Addr)
  /-- 0x2D AND absolute (R210) -/
  | andAbsolute (w : Addr)
  /-- 0x2E ROL absolute (R215) -/
  | rolAbsolute (w : Addr)
  /-- 0x2F RLA absolute (R302) -/
  | rlaAbsolute (w : Addr)
  /-- 0x30 BMI relative (R271) -/
  | bmi (d : Byte)
  /-- 0x31 AND indirectIndex (R210) -/
  | andIndirectIndex (b : Byte)
  /-- 0x33 RLA indirectIndex (R302) -/
  | rlaIndirectIndex (b : Byte)
  /-- 0x34 NOP zeropageX (R312) -/
  | nop34 (b : Byte)
  /-- 0x35 AND zeropageX (R210) -/
  | andZeropageX (b : Byte)
  /-- 0x36 ROL zeropageX (R215) -/
  | rolZeropageX (b : Byte)
  /-- 0x37 RLA zeropageX (R302) -/
  | rlaZeropageX (b : Byte)
  /-- 0x38 SEC implied (R279) -/
  | sec
  /-- 0x39 AND absoluteY (R210) -/
  | andAbsoluteY (w : Addr)
  /-- 0x3A NOP implied (R309) -/
  | nop3A
  /-- 0x3B RLA absoluteY (R302) -/
  | rlaAbsoluteY (w : Addr)
  /-- 0x3C NOP absoluteX (R314) -/
  | nop3C (w : Addr)
  /-- 0x3D AND absoluteX (R210) -/
  | andAbsoluteX (w : Addr)
  /-- 0x3E ROL absoluteX (R215) -/
  | rolAbsoluteX (w : Addr)
  /-- 0x3F RLA absoluteX (R302) -/
  | rlaAbsoluteX (w : Addr)
  /-- 0x40 RTI implied (R268) -/
  | rti
  /-- 0x41 EOR indexIndirect (R212) -/
  | eorIndexIndirect (b : Byte)
  /-- 0x43 SRE indexIndirect (R303) -/
  | sreIndexIndirect (b : Byte)
  /-- 0x44 NOP zeropage (R311) -/
  | nop44 (b : Byte)
  /-- 0x45 EOR zeropage (R212) -/
  | eorZeropage (b : Byte)
  /-- 0x46 LSR zeropage (R214) -/
  | lsrZeropage (b : Byte)
  /-- 0x47 SRE zeropage (R303) -/
  | sreZeropage (b : Byte)
  /-- 0x48 PHA implied (R260) -/
  | pha
  /-- 0x49 EOR immediate (R212) -/
  | eorImmediate (b : Byte)
  /-- 0x4A LSR accumulator (R214) -/
  | lsrAccumulator
  /-- 0x4C JMP absolute (R264) -/
  | jmpAbsolute (w : Addr)
  /-- 0x4D EOR absolute (R212) -/
  | eorAbsolute (w : Addr)
  /-- 0x4E LSR absolute (R214) -/
  | lsrAbsolute (w : Addr)
  /-- 0x4F SRE absolute (R303) -/
  | sreAbsolute (w : Addr)
  /-- 0x50 BVC relative (R272) -/
  | bvc (d : Byte)
  /-- 0x51 EOR indirectIndex (R212) -/
  | eorIndirectIndex (b : Byte)
  /-- 0x53 SRE indirectIndex (R303) -/
  | sreIndirectIndex (b : Byte)
  /-- 0x54 NOP zeropageX (R312) -/
  | nop54 (b : Byte)
  /-- 0x55 EOR zeropageX (R212) -/
  | eorZeropageX (b : Byte)
  /-- 0x56 LSR zeropageX (R214) -/
  | lsrZeropageX (b : Byte)
  /-- 0x57 SRE zeropageX (R303) -/
  | sreZeropageX (b : Byte)
  /-- 0x58 CLI implied (R280) -/
  | cli
  /-- 0x59 EOR absoluteY (R212) -/
  | eorAbsoluteY (w : Addr)
  /-- 0x5A NOP implied (R309) -/
  | nop5A
  /-- 0x5B SRE absoluteY (R303) -/
  | sreAbsoluteY (w : Addr)
  /-- 0x5C NOP absoluteX (R314) -/
  | nop5C (w : Addr)
  /-- 0x5D EOR absoluteX (R212) -/
  | eorAbsoluteX (w : Addr)
  /-- 0x5E LSR absoluteX (R214) -/
  | lsrAbsoluteX (w : Addr)
  /-- 0x5F SRE absoluteX (R303) -/
  | sreAbsoluteX (w : Addr)
  /-- 0x60 RTS implied (R267) -/
  | rts
  /-- 0x61 ADC indexIndirect (R239) -/
  | adcIndexIndirect (b : Byte)
  /-- 0x63 RRA indexIndirect (R304) -/
  | rraIndexIndirect (b : Byte)
  /-- 0x64 NOP zeropage (R311) -/
  | nop64 (b : Byte)
  /-- 0x65 ADC zeropage (R239) -/
  | adcZeropage (b : Byte)
  /-- 0x66 ROR zeropage (R216) -/
  | rorZeropage (b : Byte)
  /-- 0x67 RRA zeropage (R304) -/
  | rraZeropage (b : Byte)
  /-- 0x68 PLA implied (R261) -/
  | pla
  /-- 0x69 ADC immediate (R239) -/
  | adcImmediate (b : Byte)
  /-- 0x6A ROR accumulator (R216) -/
  | rorAccumulator
  /-- 0x6C JMP indirect (R265) -/
  | jmpIndirect (w : Addr)
  /-- 0x6D ADC absolute (R239) -/
  | adcAbsolute (w : Addr)
  /-- 0x6E ROR absolute (R216) -/
  | rorAbsolute (w : Addr)
  /-- 0x6F RRA absolute (R304) -/
  | rraAbsolute (w : Addr)
  /-- 0x70 BVS relative (R273) -/
  | bvs (d : Byte)
  /-- 0x71 ADC indirectIndex (R239) -/
  | adcIndirectIndex (b : Byte)
  /-- 0x73 RRA indirectIndex (R304) -/
  | rraIndirectIndex (b : Byte)
  /-- 0x74 NOP zeropageX (R312) -/
  | nop74 (b : Byte)
  /-- 0x75 ADC zeropageX (R239) -/
  | adcZeropageX (b : Byte)
  /-- 0x76 ROR zeropageX (R216) -/
  | rorZeropageX (b : Byte)
  /-- 0x77 RRA zeropageX (R304) -/
  | rraZeropageX (b : Byte)
  /-- 0x78 SEI implied (R281) -/
  | sei
  /-- 0x79 ADC absoluteY (R239) -/
  | adcAbsoluteY (w : Addr)
  /-- 0x7A NOP implied (R309) -/
  | nop7A
  /-- 0x7B RRA absoluteY (R304) -/
  | rraAbsoluteY (w : Addr)
  /-- 0x7C NOP absoluteX (R314) -/
  | nop7C (w : Addr)
  /-- 0x7D ADC absoluteX (R239) -/
  | adcAbsoluteX (w : Addr)
  /-- 0x7E ROR absoluteX (R216) -/
  | rorAbsoluteX (w : Addr)
  /-- 0x7F RRA absoluteX (R304) -/
  | rraAbsoluteX (w : Addr)
  /-- 0x80 NOP immediate (R310) -/
  | nop80 (b : Byte)
  /-- 0x81 STA indexIndirect (R183) -/
  | staIndexIndirect (b : Byte)
  /-- 0x82 NOP immediate (R310) -/
  | nop82 (b : Byte)
  /-- 0x83 SAX indexIndirect (R305) -/
  | saxIndexIndirect (b : Byte)
  /-- 0x84 STY zeropage (R185) -/
  | styZeropage (b : Byte)
  /-- 0x85 STA zeropage (R183) -/
  | staZeropage (b : Byte)
  /-- 0x86 STX zeropage (R184) -/
  | stxZeropage (b : Byte)
  /-- 0x87 SAX zeropage (R305) -/
  | saxZeropage (b : Byte)
  /-- 0x88 DEY implied (R238) -/
  | dey
  /-- 0x89 NOP immediate (R310) -/
  | nop89 (b : Byte)
  /-- 0x8A TXA implied (R188) -/
  | txa
  /-- 0x8C STY absolute (R185) -/
  | styAbsolute (w : Addr)
  /-- 0x8D STA absolute (R183) -/
  | staAbsolute (w : Addr)
  /-- 0x8E STX absolute (R184) -/
  | stxAbsolute (w : Addr)
  /-- 0x8F SAX absolute (R305) -/
  | saxAbsolute (w : Addr)
  /-- 0x90 BCC relative (R274) -/
  | bcc (d : Byte)
  /-- 0x91 STA indirectIndex (R183) -/
  | staIndirectIndex (b : Byte)
  /-- 0x94 STY zeropageX (R185) -/
  | styZeropageX (b : Byte)
  /-- 0x95 STA zeropageX (R183) -/
  | staZeropageX (b : Byte)
  /-- 0x96 STX zeropageY (R184) -/
  | stxZeropageY (b : Byte)
  /-- 0x97 SAX zeropageY (R305) -/
  | saxZeropageY (b : Byte)
  /-- 0x98 TYA implied (R189) -/
  | tya
  /-- 0x99 STA absoluteY (R183) -/
  | staAbsoluteY (w : Addr)
  /-- 0x9A TXS implied (R191) -/
  | txs
  /-- 0x9D STA absoluteX (R183) -/
  | staAbsoluteX (w : Addr)
  /-- 0xA0 LDY immediate (R182) -/
  | ldyImmediate (b : Byte)
  /-- 0xA1 LDA indexIndirect (R180) -/
  | ldaIndexIndirect (b : Byte)
  /-- 0xA2 LDX immediate (R181) -/
  | ldxImmediate (b : Byte)
  /-- 0xA3 LAX indexIndirect (R306) -/
  | laxIndexIndirect (b : Byte)
  /-- 0xA4 LDY zeropage (R182) -/
  | ldyZeropage (b : Byte)
  /-- 0xA5 LDA zeropage (R180) -/
  | ldaZeropage (b : Byte)
  /-- 0xA6 LDX zeropage (R181) -/
  | ldxZeropage (b : Byte)
  /-- 0xA7 LAX zeropage (R306) -/
  | laxZeropage (b : Byte)
  /-- 0xA8 TAY implied (R187) -/
  | tay
  /-- 0xA9 LDA immediate (R180) -/
  | ldaImmediate (b : Byte)
  /-- 0xAA TAX implied (R186) -/
  | tax
  /-- 0xAC LDY absolute (R182) -/
  | ldyAbsolute (w : Addr)
  /-- 0xAD LDA absolute (R180) -/
  | ldaAbsolute (w : Addr)
  /-- 0xAE LDX absolute (R181) -/
  | ldxAbsolute (w : Addr)
  /-- 0xAF LAX absolute (R306) -/
  | laxAbsolute (w : Addr)
  /-- 0xB0 BCS relative (R275) -/
  | bcs (d : Byte)
  /-- 0xB1 LDA indirectIndex (R180) -/
  | ldaIndirectIndex (b : Byte)
  /-- 0xB3 LAX indirectIndex (R306) -/
  | laxIndirectIndex (b : Byte)
  /-- 0xB4 LDY zeropageX (R182) -/
  | ldyZeropageX (b : Byte)
  /-- 0xB5 LDA zeropageX (R180) -/
  | ldaZeropageX (b : Byte)
  /-- 0xB6 LDX zeropageY (R181) -/
  | ldxZeropageY (b : Byte)
  /-- 0xB7 LAX zeropageY (R306) -/
  | laxZeropageY (b : Byte)
  /-- 0xB8 CLV implied (R282) -/
  | clv
  /-- 0xB9 LDA absoluteY (R180) -/
  | ldaAbsoluteY (w : Addr)
  /-- 0xBA TSX implied (R190) -/
  | tsx
  /-- 0xBC LDY absoluteX (R182) -/
  | ldyAbsoluteX (w : Addr)
  /-- 0xBD LDA absoluteX (R180) -/
  | ldaAbsoluteX (w : Addr)
  /-- 0xBE LDX absoluteY (R181) -/
  | ldxAbsoluteY (w : Addr)
  /-- 0xBF LAX absoluteY (R306) -/
  | laxAbsoluteY (w : Addr)
  /-- 0xC0 CPY immediate (R232) -/
  | cpyImmediate (b : Byte)
  /-- 0xC1 CMP indexIndirect (R230) -/
  | cmpIndexIndirect (b : Byte)
  /-- 0xC2 NOP immediate (R310) -/
  | nopC2 (b : Byte)
  /-- 0xC3 DCP indexIndirect (R307) -/
  | dcpIndexIndirect (b : Byte)
  /-- 0xC4 CPY zeropage (R232) -/
  | cpyZeropage (b : Byte)
  /-- 0xC5 CMP zeropage (R230) -/
  | cmpZeropage (b : Byte)
  /-- 0xC6 DEC zeropage (R234) -/
  | decZeropage (b : Byte)
  /-- 0xC7 DCP zeropage (R307) -/
  | dcpZeropage (b : Byte)
  /-- 0xC8 INY implied (R236) -/
  | iny
  /-- 0xC9 CMP immediate (R230) -/
  | cmpImmediate (b : Byte)
  /-- 0xCA DEX implied (R237) -/
  | dex
  /-- 0xCC CPY absolute (R232) -/
  | cpyAbsolute (w : Addr)
  /-- 0xCD CMP absolute (R230) -/
  | cmpAbsolute (w : Addr)
  /-- 0xCE DEC absolute (R234) -/
  | decAbsolute (w : Addr)
  /-- 0xCF DCP absolute (R307) -/
  | dcpAbsolute (w : Addr)
  /-- 0xD0 BNE relative (R276) -/
  | bne (d : Byte)
  /-- 0xD1 CMP indirectIndex (R230) -/
  | cmpIndirectIndex (b : Byte)
  /-- 0xD3 DCP indirectIndex (R307) -/
  | dcpIndirectIndex (b : Byte)
  /-- 0xD4 NOP zeropageX (R312) -/
  | nopD4 (b : Byte)
  /-- 0xD5 CMP zeropageX (R230) -/
  | cmpZeropageX (b : Byte)
  /-- 0xD6 DEC zeropageX (R234) -/
  | decZeropageX (b : Byte)
  /-- 0xD7 DCP zeropageX (R307) -/
  | dcpZeropageX (b : Byte)
  /-- 0xD8 CLD implied (R283) -/
  | cld
  /-- 0xD9 CMP absoluteY (R230) -/
  | cmpAbsoluteY (w : Addr)
  /-- 0xDA NOP implied (R309) -/
  | nopDA
  /-- 0xDB DCP absoluteY (R307) -/
  | dcpAbsoluteY (w : Addr)
  /-- 0xDC NOP absoluteX (R314) -/
  | nopDC (w : Addr)
  /-- 0xDD CMP absoluteX (R230) -/
  | cmpAbsoluteX (w : Addr)
  /-- 0xDE DEC absoluteX (R234) -/
  | decAbsoluteX (w : Addr)
  /-- 0xDF DCP absoluteX (R307) -/
  | dcpAbsoluteX (w : Addr)
  /-- 0xE0 CPX immediate (R231) -/
  | cpxImmediate (b : Byte)
  /-- 0xE1 SBC indexIndirect (R240) -/
  | sbcIndexIndirect (b : Byte)
  /-- 0xE2 NOP immediate (R310) -/
  | nopE2 (b : Byte)
  /-- 0xE3 ISC indexIndirect (R308) -/
  | iscIndexIndirect (b : Byte)
  /-- 0xE4 CPX zeropage (R231) -/
  | cpxZeropage (b : Byte)
  /-- 0xE5 SBC zeropage (R240) -/
  | sbcZeropage (b : Byte)
  /-- 0xE6 INC zeropage (R233) -/
  | incZeropage (b : Byte)
  /-- 0xE7 ISC zeropage (R308) -/
  | iscZeropage (b : Byte)
  /-- 0xE8 INX implied (R235) -/
  | inx
  /-- 0xE9 SBC immediate (R240) -/
  | sbcImmediate (b : Byte)
  /-- 0xEA NOP implied (R286) -/
  | nop
  /-- 0xEB SBC immediate (R315) -/
  | sbcImmediateEB (b : Byte)
  /-- 0xEC CPX absolute (R231) -/
  | cpxAbsolute (w : Addr)
  /-- 0xED SBC absolute (R240) -/
  | sbcAbsolute (w : Addr)
  /-- 0xEE INC absolute (R233) -/
  | incAbsolute (w : Addr)
  /-- 0xEF ISC absolute (R308) -/
  | iscAbsolute (w : Addr)
  /-- 0xF0 BEQ relative (R277) -/
  | beq (d : Byte)
  /-- 0xF1 SBC indirectIndex (R240) -/
  | sbcIndirectIndex (b : Byte)
  /-- 0xF3 ISC indirectIndex (R308) -/
  | iscIndirectIndex (b : Byte)
  /-- 0xF4 NOP zeropageX (R312) -/
  | nopF4 (b : Byte)
  /-- 0xF5 SBC zeropageX (R240) -/
  | sbcZeropageX (b : Byte)
  /-- 0xF6 INC zeropageX (R233) -/
  | incZeropageX (b : Byte)
  /-- 0xF7 ISC zeropageX (R308) -/
  | iscZeropageX (b : Byte)
  /-- 0xF8 SED implied (R284) -/
  | sed
  /-- 0xF9 SBC absoluteY (R240) -/
  | sbcAbsoluteY (w : Addr)
  /-- 0xFA NOP implied (R309) -/
  | nopFA
  /-- 0xFB ISC absoluteY (R308) -/
  | iscAbsoluteY (w : Addr)
  /-- 0xFC NOP absoluteX (R314) -/
  | nopFC (w : Addr)
  /-- 0xFD SBC absoluteX (R240) -/
  | sbcAbsoluteX (w : Addr)
  /-- 0xFE INC absoluteX (R233) -/
  | incAbsoluteX (w : Addr)
  /-- 0xFF ISC absoluteX (R308) -/
  | iscAbsoluteX (w : Addr)
  /-- One of the 25 unmapped slots, with its opcode byte (30_encoding.md R138, 60_exceptions.md R460) -/
  | unmapped (op : Byte)
  deriving DecidableEq, Repr

end Sys2Proof
end

