-- ==== Sys2Proof/WellFormed.lean ====
section
/-! DEFINITION. Well-formedness of an instruction. Every value of an operand byte is meaningful (30_encoding.md
R139: there are no reserved fields inside an instruction), so the one thing to check is that the byte an
`unmapped` term carries is one of the 25 unmapped slots (30_encoding.md R138). -/

namespace Sys2Proof

/-- The 25 unmapped opcode bytes (30_encoding.md R138). -/
def unmappedOpcodes : List Byte := [
  0x02, 0x12, 0x22, 0x32, 0x42, 0x52, 0x62, 0x72, 0x92, 0xB2, 0xD2, 0xF2,
  0x0B, 0x2B, 0x4B, 0x6B, 0x8B, 0xAB, 0xCB,
  0x93, 0x9F, 0x9C, 0x9E, 0x9B, 0xBB]

/-- The instruction is one of the 231 mapped slots (30_encoding.md R137, R140). -/
def Instr.mapped : Instr → Bool
  | .unmapped _ => false
  | _ => true

/-- The term is one a decoder can give: an `unmapped` term carries one of the 25 unmapped bytes. -/
def Instr.wellFormed : Instr → Bool
  | .unmapped op => unmappedOpcodes.contains op
  | _ => true

end Sys2Proof
end

