-- ==== Sys2Proof/Decode.lean ====
section
/-! DEFINITION. Decoding and encoding (30_encoding.md R130 to R143): the byte-order helpers, the opcode map of
R136 as a table from the opcode byte to the instruction's format, a decoder total on any list of bytes, and the
encoder written from the same map. -/

namespace Sys2Proof

/-- `hi8(w)` (00_scope.md R7). -/
def hi8 (w : Addr) : Byte := w.extractLsb' 8 8

/-- `lo8(w)` (00_scope.md R7). -/
def lo8 (w : Addr) : Byte := w.extractLsb' 0 8

/-- `hi:lo` (00_scope.md R7): the 16-bit quantity whose bytes lie low first (20_memory.md R92). -/
def word (hi lo : Byte) : Addr := hi ++ lo

/-- The three formats of 30_encoding.md R130, each with the instruction its operand bytes make. -/
inductive Format where
  /-- One byte: the opcode alone. -/
  | f1 (i : Instr)
  /-- Two bytes: the opcode and one operand byte. -/
  | f2 (i : Byte → Instr)
  /-- Three bytes: the opcode and a 16-bit operand, low byte first (R133). -/
  | f3 (i : Addr → Instr)

/-- Rows 0x00 to 0x0F of the opcode map (30_encoding.md R136). -/
def opcodeRow0 : List Format := [
  .f1 .brk, .f2 .oraIndexIndirect, .f1 (.unmapped 0x02), .f2 .sloIndexIndirect,
  .f2 .nop04, .f2 .oraZeropage, .f2 .aslZeropage, .f2 .sloZeropage,
  .f1 .php, .f2 .oraImmediate, .f1 .aslAccumulator, .f1 (.unmapped 0x0B),
  .f3 .nop0C, .f3 .oraAbsolute, .f3 .aslAbsolute, .f3 .sloAbsolute]

/-- Rows 0x10 to 0x1F of the opcode map (30_encoding.md R136). -/
def opcodeRow1 : List Format := [
  .f2 .bpl, .f2 .oraIndirectIndex, .f1 (.unmapped 0x12), .f2 .sloIndirectIndex,
  .f2 .nop14, .f2 .oraZeropageX, .f2 .aslZeropageX, .f2 .sloZeropageX,
  .f1 .clc, .f3 .oraAbsoluteY, .f1 .nop1A, .f3 .sloAbsoluteY,
  .f3 .nop1C, .f3 .oraAbsoluteX, .f3 .aslAbsoluteX, .f3 .sloAbsoluteX]

/-- Rows 0x20 to 0x2F of the opcode map (30_encoding.md R136). -/
def opcodeRow2 : List Format := [
  .f3 .jsr, .f2 .andIndexIndirect, .f1 (.unmapped 0x22), .f2 .rlaIndexIndirect,
  .f2 .bitZeropage, .f2 .andZeropage, .f2 .rolZeropage, .f2 .rlaZeropage,
  .f1 .plp, .f2 .andImmediate, .f1 .rolAccumulator, .f1 (.unmapped 0x2B),
  .f3 .bitAbsolute, .f3 .andAbsolute, .f3 .rolAbsolute, .f3 .rlaAbsolute]

/-- Rows 0x30 to 0x3F of the opcode map (30_encoding.md R136). -/
def opcodeRow3 : List Format := [
  .f2 .bmi, .f2 .andIndirectIndex, .f1 (.unmapped 0x32), .f2 .rlaIndirectIndex,
  .f2 .nop34, .f2 .andZeropageX, .f2 .rolZeropageX, .f2 .rlaZeropageX,
  .f1 .sec, .f3 .andAbsoluteY, .f1 .nop3A, .f3 .rlaAbsoluteY,
  .f3 .nop3C, .f3 .andAbsoluteX, .f3 .rolAbsoluteX, .f3 .rlaAbsoluteX]

/-- Rows 0x40 to 0x4F of the opcode map (30_encoding.md R136). -/
def opcodeRow4 : List Format := [
  .f1 .rti, .f2 .eorIndexIndirect, .f1 (.unmapped 0x42), .f2 .sreIndexIndirect,
  .f2 .nop44, .f2 .eorZeropage, .f2 .lsrZeropage, .f2 .sreZeropage,
  .f1 .pha, .f2 .eorImmediate, .f1 .lsrAccumulator, .f1 (.unmapped 0x4B),
  .f3 .jmpAbsolute, .f3 .eorAbsolute, .f3 .lsrAbsolute, .f3 .sreAbsolute]

/-- Rows 0x50 to 0x5F of the opcode map (30_encoding.md R136). -/
def opcodeRow5 : List Format := [
  .f2 .bvc, .f2 .eorIndirectIndex, .f1 (.unmapped 0x52), .f2 .sreIndirectIndex,
  .f2 .nop54, .f2 .eorZeropageX, .f2 .lsrZeropageX, .f2 .sreZeropageX,
  .f1 .cli, .f3 .eorAbsoluteY, .f1 .nop5A, .f3 .sreAbsoluteY,
  .f3 .nop5C, .f3 .eorAbsoluteX, .f3 .lsrAbsoluteX, .f3 .sreAbsoluteX]

/-- Rows 0x60 to 0x6F of the opcode map (30_encoding.md R136). -/
def opcodeRow6 : List Format := [
  .f1 .rts, .f2 .adcIndexIndirect, .f1 (.unmapped 0x62), .f2 .rraIndexIndirect,
  .f2 .nop64, .f2 .adcZeropage, .f2 .rorZeropage, .f2 .rraZeropage,
  .f1 .pla, .f2 .adcImmediate, .f1 .rorAccumulator, .f1 (.unmapped 0x6B),
  .f3 .jmpIndirect, .f3 .adcAbsolute, .f3 .rorAbsolute, .f3 .rraAbsolute]

/-- Rows 0x70 to 0x7F of the opcode map (30_encoding.md R136). -/
def opcodeRow7 : List Format := [
  .f2 .bvs, .f2 .adcIndirectIndex, .f1 (.unmapped 0x72), .f2 .rraIndirectIndex,
  .f2 .nop74, .f2 .adcZeropageX, .f2 .rorZeropageX, .f2 .rraZeropageX,
  .f1 .sei, .f3 .adcAbsoluteY, .f1 .nop7A, .f3 .rraAbsoluteY,
  .f3 .nop7C, .f3 .adcAbsoluteX, .f3 .rorAbsoluteX, .f3 .rraAbsoluteX]

/-- Rows 0x80 to 0x8F of the opcode map (30_encoding.md R136). -/
def opcodeRow8 : List Format := [
  .f2 .nop80, .f2 .staIndexIndirect, .f2 .nop82, .f2 .saxIndexIndirect,
  .f2 .styZeropage, .f2 .staZeropage, .f2 .stxZeropage, .f2 .saxZeropage,
  .f1 .dey, .f2 .nop89, .f1 .txa, .f1 (.unmapped 0x8B),
  .f3 .styAbsolute, .f3 .staAbsolute, .f3 .stxAbsolute, .f3 .saxAbsolute]

/-- Rows 0x90 to 0x9F of the opcode map (30_encoding.md R136). -/
def opcodeRow9 : List Format := [
  .f2 .bcc, .f2 .staIndirectIndex, .f1 (.unmapped 0x92), .f1 (.unmapped 0x93),
  .f2 .styZeropageX, .f2 .staZeropageX, .f2 .stxZeropageY, .f2 .saxZeropageY,
  .f1 .tya, .f3 .staAbsoluteY, .f1 .txs, .f1 (.unmapped 0x9B),
  .f1 (.unmapped 0x9C), .f3 .staAbsoluteX, .f1 (.unmapped 0x9E), .f1 (.unmapped 0x9F)]

/-- Rows 0xA0 to 0xAF of the opcode map (30_encoding.md R136). -/
def opcodeRowA : List Format := [
  .f2 .ldyImmediate, .f2 .ldaIndexIndirect, .f2 .ldxImmediate, .f2 .laxIndexIndirect,
  .f2 .ldyZeropage, .f2 .ldaZeropage, .f2 .ldxZeropage, .f2 .laxZeropage,
  .f1 .tay, .f2 .ldaImmediate, .f1 .tax, .f1 (.unmapped 0xAB),
  .f3 .ldyAbsolute, .f3 .ldaAbsolute, .f3 .ldxAbsolute, .f3 .laxAbsolute]

/-- Rows 0xB0 to 0xBF of the opcode map (30_encoding.md R136). -/
def opcodeRowB : List Format := [
  .f2 .bcs, .f2 .ldaIndirectIndex, .f1 (.unmapped 0xB2), .f2 .laxIndirectIndex,
  .f2 .ldyZeropageX, .f2 .ldaZeropageX, .f2 .ldxZeropageY, .f2 .laxZeropageY,
  .f1 .clv, .f3 .ldaAbsoluteY, .f1 .tsx, .f1 (.unmapped 0xBB),
  .f3 .ldyAbsoluteX, .f3 .ldaAbsoluteX, .f3 .ldxAbsoluteY, .f3 .laxAbsoluteY]

/-- Rows 0xC0 to 0xCF of the opcode map (30_encoding.md R136). -/
def opcodeRowC : List Format := [
  .f2 .cpyImmediate, .f2 .cmpIndexIndirect, .f2 .nopC2, .f2 .dcpIndexIndirect,
  .f2 .cpyZeropage, .f2 .cmpZeropage, .f2 .decZeropage, .f2 .dcpZeropage,
  .f1 .iny, .f2 .cmpImmediate, .f1 .dex, .f1 (.unmapped 0xCB),
  .f3 .cpyAbsolute, .f3 .cmpAbsolute, .f3 .decAbsolute, .f3 .dcpAbsolute]

/-- Rows 0xD0 to 0xDF of the opcode map (30_encoding.md R136). -/
def opcodeRowD : List Format := [
  .f2 .bne, .f2 .cmpIndirectIndex, .f1 (.unmapped 0xD2), .f2 .dcpIndirectIndex,
  .f2 .nopD4, .f2 .cmpZeropageX, .f2 .decZeropageX, .f2 .dcpZeropageX,
  .f1 .cld, .f3 .cmpAbsoluteY, .f1 .nopDA, .f3 .dcpAbsoluteY,
  .f3 .nopDC, .f3 .cmpAbsoluteX, .f3 .decAbsoluteX, .f3 .dcpAbsoluteX]

/-- Rows 0xE0 to 0xEF of the opcode map (30_encoding.md R136). -/
def opcodeRowE : List Format := [
  .f2 .cpxImmediate, .f2 .sbcIndexIndirect, .f2 .nopE2, .f2 .iscIndexIndirect,
  .f2 .cpxZeropage, .f2 .sbcZeropage, .f2 .incZeropage, .f2 .iscZeropage,
  .f1 .inx, .f2 .sbcImmediate, .f1 .nop, .f2 .sbcImmediateEB,
  .f3 .cpxAbsolute, .f3 .sbcAbsolute, .f3 .incAbsolute, .f3 .iscAbsolute]

/-- Rows 0xF0 to 0xFF of the opcode map (30_encoding.md R136). -/
def opcodeRowF : List Format := [
  .f2 .beq, .f2 .sbcIndirectIndex, .f1 (.unmapped 0xF2), .f2 .iscIndirectIndex,
  .f2 .nopF4, .f2 .sbcZeropageX, .f2 .incZeropageX, .f2 .iscZeropageX,
  .f1 .sed, .f3 .sbcAbsoluteY, .f1 .nopFA, .f3 .iscAbsoluteY,
  .f3 .nopFC, .f3 .sbcAbsoluteX, .f3 .incAbsoluteX, .f3 .iscAbsoluteX]

/-- The opcode map (30_encoding.md R136): 256 slots in opcode order, 16 to a row. -/
def opcodeMap : List (List Format) := [
  opcodeRow0, opcodeRow1, opcodeRow2, opcodeRow3, opcodeRow4, opcodeRow5, opcodeRow6, opcodeRow7,
  opcodeRow8, opcodeRow9, opcodeRowA, opcodeRowB, opcodeRowC, opcodeRowD, opcodeRowE, opcodeRowF]

/-- The slot of an opcode byte: the byte is looked up whole (30_encoding.md R130). The two defaults are never
reached, since the map has 16 rows of 16. -/
def formatOf (op : Byte) : Format :=
  (opcodeMap.getD (op.toNat / 16) []).getD (op.toNat % 16) (.f1 (.unmapped op))

/-- The length in bytes of a format (30_encoding.md R130). -/
def Format.length : Format → Nat
  | .f1 _ => 1
  | .f2 _ => 2
  | .f3 _ => 3

/-- Why a list of bytes is no instruction: only because it ends too early. Every first byte has a slot; an
unmapped one decodes to its own constructor (30_encoding.md R132). -/
inductive DecodeReject where
  /-- There is no byte at all. -/
  | noBytes
  /-- The list ends before the operand bytes of the opcode's format. -/
  | truncated (opcode : Byte)
  deriving DecidableEq, Repr

/-- The decoder (30_encoding.md R132): the first instruction of a list of bytes, and the bytes after it. -/
def decode : List Byte → Except DecodeReject (Instr × List Byte)
  | [] => .error .noBytes
  | op :: rest =>
    match formatOf op with
    | .f1 i => .ok (i, rest)
    | .f2 f =>
      match rest with
      | b1 :: rest => .ok (f b1, rest)
      | [] => .error (.truncated op)
    | .f3 f =>
      match rest with
      | b1 :: b2 :: rest => .ok (f (word b2 b1), rest)
      | _ => .error (.truncated op)

/-- The encoder: the bytes of an instruction in memory order (30_encoding.md R130, R133, R136). -/
def encode : Instr → List Byte
  | .brk => [0x00]
  | .oraIndexIndirect b => [0x01, b]
  | .sloIndexIndirect b => [0x03, b]
  | .nop04 b => [0x04, b]
  | .oraZeropage b => [0x05, b]
  | .aslZeropage b => [0x06, b]
  | .sloZeropage b => [0x07, b]
  | .php => [0x08]
  | .oraImmediate b => [0x09, b]
  | .aslAccumulator => [0x0A]
  | .nop0C w => [0x0C, lo8 w, hi8 w]
  | .oraAbsolute w => [0x0D, lo8 w, hi8 w]
  | .aslAbsolute w => [0x0E, lo8 w, hi8 w]
  | .sloAbsolute w => [0x0F, lo8 w, hi8 w]
  | .bpl d => [0x10, d]
  | .oraIndirectIndex b => [0x11, b]
  | .sloIndirectIndex b => [0x13, b]
  | .nop14 b => [0x14, b]
  | .oraZeropageX b => [0x15, b]
  | .aslZeropageX b => [0x16, b]
  | .sloZeropageX b => [0x17, b]
  | .clc => [0x18]
  | .oraAbsoluteY w => [0x19, lo8 w, hi8 w]
  | .nop1A => [0x1A]
  | .sloAbsoluteY w => [0x1B, lo8 w, hi8 w]
  | .nop1C w => [0x1C, lo8 w, hi8 w]
  | .oraAbsoluteX w => [0x1D, lo8 w, hi8 w]
  | .aslAbsoluteX w => [0x1E, lo8 w, hi8 w]
  | .sloAbsoluteX w => [0x1F, lo8 w, hi8 w]
  | .jsr w => [0x20, lo8 w, hi8 w]
  | .andIndexIndirect b => [0x21, b]
  | .rlaIndexIndirect b => [0x23, b]
  | .bitZeropage b => [0x24, b]
  | .andZeropage b => [0x25, b]
  | .rolZeropage b => [0x26, b]
  | .rlaZeropage b => [0x27, b]
  | .plp => [0x28]
  | .andImmediate b => [0x29, b]
  | .rolAccumulator => [0x2A]
  | .bitAbsolute w => [0x2C, lo8 w, hi8 w]
  | .andAbsolute w => [0x2D, lo8 w, hi8 w]
  | .rolAbsolute w => [0x2E, lo8 w, hi8 w]
  | .rlaAbsolute w => [0x2F, lo8 w, hi8 w]
  | .bmi d => [0x30, d]
  | .andIndirectIndex b => [0x31, b]
  | .rlaIndirectIndex b => [0x33, b]
  | .nop34 b => [0x34, b]
  | .andZeropageX b => [0x35, b]
  | .rolZeropageX b => [0x36, b]
  | .rlaZeropageX b => [0x37, b]
  | .sec => [0x38]
  | .andAbsoluteY w => [0x39, lo8 w, hi8 w]
  | .nop3A => [0x3A]
  | .rlaAbsoluteY w => [0x3B, lo8 w, hi8 w]
  | .nop3C w => [0x3C, lo8 w, hi8 w]
  | .andAbsoluteX w => [0x3D, lo8 w, hi8 w]
  | .rolAbsoluteX w => [0x3E, lo8 w, hi8 w]
  | .rlaAbsoluteX w => [0x3F, lo8 w, hi8 w]
  | .rti => [0x40]
  | .eorIndexIndirect b => [0x41, b]
  | .sreIndexIndirect b => [0x43, b]
  | .nop44 b => [0x44, b]
  | .eorZeropage b => [0x45, b]
  | .lsrZeropage b => [0x46, b]
  | .sreZeropage b => [0x47, b]
  | .pha => [0x48]
  | .eorImmediate b => [0x49, b]
  | .lsrAccumulator => [0x4A]
  | .jmpAbsolute w => [0x4C, lo8 w, hi8 w]
  | .eorAbsolute w => [0x4D, lo8 w, hi8 w]
  | .lsrAbsolute w => [0x4E, lo8 w, hi8 w]
  | .sreAbsolute w => [0x4F, lo8 w, hi8 w]
  | .bvc d => [0x50, d]
  | .eorIndirectIndex b => [0x51, b]
  | .sreIndirectIndex b => [0x53, b]
  | .nop54 b => [0x54, b]
  | .eorZeropageX b => [0x55, b]
  | .lsrZeropageX b => [0x56, b]
  | .sreZeropageX b => [0x57, b]
  | .cli => [0x58]
  | .eorAbsoluteY w => [0x59, lo8 w, hi8 w]
  | .nop5A => [0x5A]
  | .sreAbsoluteY w => [0x5B, lo8 w, hi8 w]
  | .nop5C w => [0x5C, lo8 w, hi8 w]
  | .eorAbsoluteX w => [0x5D, lo8 w, hi8 w]
  | .lsrAbsoluteX w => [0x5E, lo8 w, hi8 w]
  | .sreAbsoluteX w => [0x5F, lo8 w, hi8 w]
  | .rts => [0x60]
  | .adcIndexIndirect b => [0x61, b]
  | .rraIndexIndirect b => [0x63, b]
  | .nop64 b => [0x64, b]
  | .adcZeropage b => [0x65, b]
  | .rorZeropage b => [0x66, b]
  | .rraZeropage b => [0x67, b]
  | .pla => [0x68]
  | .adcImmediate b => [0x69, b]
  | .rorAccumulator => [0x6A]
  | .jmpIndirect w => [0x6C, lo8 w, hi8 w]
  | .adcAbsolute w => [0x6D, lo8 w, hi8 w]
  | .rorAbsolute w => [0x6E, lo8 w, hi8 w]
  | .rraAbsolute w => [0x6F, lo8 w, hi8 w]
  | .bvs d => [0x70, d]
  | .adcIndirectIndex b => [0x71, b]
  | .rraIndirectIndex b => [0x73, b]
  | .nop74 b => [0x74, b]
  | .adcZeropageX b => [0x75, b]
  | .rorZeropageX b => [0x76, b]
  | .rraZeropageX b => [0x77, b]
  | .sei => [0x78]
  | .adcAbsoluteY w => [0x79, lo8 w, hi8 w]
  | .nop7A => [0x7A]
  | .rraAbsoluteY w => [0x7B, lo8 w, hi8 w]
  | .nop7C w => [0x7C, lo8 w, hi8 w]
  | .adcAbsoluteX w => [0x7D, lo8 w, hi8 w]
  | .rorAbsoluteX w => [0x7E, lo8 w, hi8 w]
  | .rraAbsoluteX w => [0x7F, lo8 w, hi8 w]
  | .nop80 b => [0x80, b]
  | .staIndexIndirect b => [0x81, b]
  | .nop82 b => [0x82, b]
  | .saxIndexIndirect b => [0x83, b]
  | .styZeropage b => [0x84, b]
  | .staZeropage b => [0x85, b]
  | .stxZeropage b => [0x86, b]
  | .saxZeropage b => [0x87, b]
  | .dey => [0x88]
  | .nop89 b => [0x89, b]
  | .txa => [0x8A]
  | .styAbsolute w => [0x8C, lo8 w, hi8 w]
  | .staAbsolute w => [0x8D, lo8 w, hi8 w]
  | .stxAbsolute w => [0x8E, lo8 w, hi8 w]
  | .saxAbsolute w => [0x8F, lo8 w, hi8 w]
  | .bcc d => [0x90, d]
  | .staIndirectIndex b => [0x91, b]
  | .styZeropageX b => [0x94, b]
  | .staZeropageX b => [0x95, b]
  | .stxZeropageY b => [0x96, b]
  | .saxZeropageY b => [0x97, b]
  | .tya => [0x98]
  | .staAbsoluteY w => [0x99, lo8 w, hi8 w]
  | .txs => [0x9A]
  | .staAbsoluteX w => [0x9D, lo8 w, hi8 w]
  | .ldyImmediate b => [0xA0, b]
  | .ldaIndexIndirect b => [0xA1, b]
  | .ldxImmediate b => [0xA2, b]
  | .laxIndexIndirect b => [0xA3, b]
  | .ldyZeropage b => [0xA4, b]
  | .ldaZeropage b => [0xA5, b]
  | .ldxZeropage b => [0xA6, b]
  | .laxZeropage b => [0xA7, b]
  | .tay => [0xA8]
  | .ldaImmediate b => [0xA9, b]
  | .tax => [0xAA]
  | .ldyAbsolute w => [0xAC, lo8 w, hi8 w]
  | .ldaAbsolute w => [0xAD, lo8 w, hi8 w]
  | .ldxAbsolute w => [0xAE, lo8 w, hi8 w]
  | .laxAbsolute w => [0xAF, lo8 w, hi8 w]
  | .bcs d => [0xB0, d]
  | .ldaIndirectIndex b => [0xB1, b]
  | .laxIndirectIndex b => [0xB3, b]
  | .ldyZeropageX b => [0xB4, b]
  | .ldaZeropageX b => [0xB5, b]
  | .ldxZeropageY b => [0xB6, b]
  | .laxZeropageY b => [0xB7, b]
  | .clv => [0xB8]
  | .ldaAbsoluteY w => [0xB9, lo8 w, hi8 w]
  | .tsx => [0xBA]
  | .ldyAbsoluteX w => [0xBC, lo8 w, hi8 w]
  | .ldaAbsoluteX w => [0xBD, lo8 w, hi8 w]
  | .ldxAbsoluteY w => [0xBE, lo8 w, hi8 w]
  | .laxAbsoluteY w => [0xBF, lo8 w, hi8 w]
  | .cpyImmediate b => [0xC0, b]
  | .cmpIndexIndirect b => [0xC1, b]
  | .nopC2 b => [0xC2, b]
  | .dcpIndexIndirect b => [0xC3, b]
  | .cpyZeropage b => [0xC4, b]
  | .cmpZeropage b => [0xC5, b]
  | .decZeropage b => [0xC6, b]
  | .dcpZeropage b => [0xC7, b]
  | .iny => [0xC8]
  | .cmpImmediate b => [0xC9, b]
  | .dex => [0xCA]
  | .cpyAbsolute w => [0xCC, lo8 w, hi8 w]
  | .cmpAbsolute w => [0xCD, lo8 w, hi8 w]
  | .decAbsolute w => [0xCE, lo8 w, hi8 w]
  | .dcpAbsolute w => [0xCF, lo8 w, hi8 w]
  | .bne d => [0xD0, d]
  | .cmpIndirectIndex b => [0xD1, b]
  | .dcpIndirectIndex b => [0xD3, b]
  | .nopD4 b => [0xD4, b]
  | .cmpZeropageX b => [0xD5, b]
  | .decZeropageX b => [0xD6, b]
  | .dcpZeropageX b => [0xD7, b]
  | .cld => [0xD8]
  | .cmpAbsoluteY w => [0xD9, lo8 w, hi8 w]
  | .nopDA => [0xDA]
  | .dcpAbsoluteY w => [0xDB, lo8 w, hi8 w]
  | .nopDC w => [0xDC, lo8 w, hi8 w]
  | .cmpAbsoluteX w => [0xDD, lo8 w, hi8 w]
  | .decAbsoluteX w => [0xDE, lo8 w, hi8 w]
  | .dcpAbsoluteX w => [0xDF, lo8 w, hi8 w]
  | .cpxImmediate b => [0xE0, b]
  | .sbcIndexIndirect b => [0xE1, b]
  | .nopE2 b => [0xE2, b]
  | .iscIndexIndirect b => [0xE3, b]
  | .cpxZeropage b => [0xE4, b]
  | .sbcZeropage b => [0xE5, b]
  | .incZeropage b => [0xE6, b]
  | .iscZeropage b => [0xE7, b]
  | .inx => [0xE8]
  | .sbcImmediate b => [0xE9, b]
  | .nop => [0xEA]
  | .sbcImmediateEB b => [0xEB, b]
  | .cpxAbsolute w => [0xEC, lo8 w, hi8 w]
  | .sbcAbsolute w => [0xED, lo8 w, hi8 w]
  | .incAbsolute w => [0xEE, lo8 w, hi8 w]
  | .iscAbsolute w => [0xEF, lo8 w, hi8 w]
  | .beq d => [0xF0, d]
  | .sbcIndirectIndex b => [0xF1, b]
  | .iscIndirectIndex b => [0xF3, b]
  | .nopF4 b => [0xF4, b]
  | .sbcZeropageX b => [0xF5, b]
  | .incZeropageX b => [0xF6, b]
  | .iscZeropageX b => [0xF7, b]
  | .sed => [0xF8]
  | .sbcAbsoluteY w => [0xF9, lo8 w, hi8 w]
  | .nopFA => [0xFA]
  | .iscAbsoluteY w => [0xFB, lo8 w, hi8 w]
  | .nopFC w => [0xFC, lo8 w, hi8 w]
  | .sbcAbsoluteX w => [0xFD, lo8 w, hi8 w]
  | .incAbsoluteX w => [0xFE, lo8 w, hi8 w]
  | .iscAbsoluteX w => [0xFF, lo8 w, hi8 w]
  | .unmapped op => [op]

/-- The bytes of the number `w` as spec/opcode_table.json numbers an instruction's bits: the first byte is the
least significant one. -/
def tableBytes (nbits w : Nat) : List Byte :=
  let w := w % 2 ^ nbits
  [BitVec.ofNat 8 w, BitVec.ofNat 8 (w / 256), BitVec.ofNat 8 (w / 65536)]

/-- The instruction the decoder reads from an instruction whose bits are `w`; every bit above `nbits` is zero. -/
def decodeTableWord (nbits w : Nat) : Option Instr :=
  match decode (tableBytes nbits w) with
  | .ok (i, _) => some i
  | .error _ => none

end Sys2Proof
end

