-- ==== Sys2Proof/Config.lean ====
section
/-! DEFINITION. What is fixed for one machine, and what the spec leaves free (00_scope.md R5, 10_state.md R37,
R52): the cartridge, the parameters a model takes as arguments, and the uninterpreted constants behind the
draws. -/

namespace Sys2Proof

/-- `PRG_BLOCKS` (00_scope.md R5): an image with another count is refused by `load_rom` (48_system_driver.md R427). -/
inductive PrgBlocks where
  | one
  | two
  deriving DecidableEq, Repr

/-- `MIRRORING` (00_scope.md R5, 20_memory.md R102). -/
inductive Mirroring where
  | vertical
  | horizontal
  deriving DecidableEq, Repr

/-- The cartridge as `load_rom` installed it, immutable thereafter (10_state.md R37). `prg` and `chr` list the
bytes of the image in the canonical form of Machine/Memory.lean, by their offset in the region; `chr` is `none`
when `CHR_BLOCKS` is 0. -/
structure Cartridge where
  prgBlocks : PrgBlocks
  prg       : List Host.Cell
  chr       : Option (List Host.Cell)
  mirroring : Mirroring
  deriving DecidableEq, Repr

/-- The blank image: one program block and no pattern data, every byte zero (DESIGN CHOICE, log entry 2). -/
def Cartridge.blank : Cartridge :=
  { prgBlocks := .one, prg := [], chr := none, mirroring := .horizontal }

/-- The parameters of 00_scope.md R5 that a model takes as arguments and that stay fixed in a run. -/
structure Config where
  /-- `BRK_RESPECTS_I`: the interrupt-disable flag masks BRK (44_stack_control_flags.md R285). -/
  brkRespectsI : Bool
  deriving DecidableEq, Repr

/-- The default parameters (00_scope.md R5: `BRK_RESPECTS_I` is true). -/
def Config.default : Config := { brkRespectsI := true }

/-- `ext_read(a)` (20_memory.md R89): the collaborator's answer to the read of address `a` that takes draw number
`n`; any byte, under no law. A free value (log entry 4). -/
opaque Config.extRead (n : Nat) (a : Addr) : Byte

/-- `open_bus_read` (20_memory.md R90): the byte of draw number `n`; any byte, under no law. A free value (log
entry 4). -/
opaque Config.openBusRead (n : Nat) : Byte

/-- `RGBA_OF` (48_system_driver.md R430): the host's table from a 6-bit palette value to a colour. A free value
(log entry 13). -/
opaque Config.rgbaOf (colour : BitVec 6) : BitVec 32

end Sys2Proof
end

