-- ==== Sys2Proof/Machine/Memory.lean ====
section
/-! DEFINITION. A memory as a list of (index, value) pairs in one canonical form: indexes strictly rising, below
the memory's size, and no value equal to `d`, what an unlisted index reads as. So equal memories are equal
lists. Every storage array of the machine (10_state.md R36, R37, R43, R46, R48) is such a list. -/

namespace Sys2Proof.Machine

/-- A memory whose cells hold values of type `α`. -/
abbrev Cells (α : Type) := List (Nat × α)

/-- A byte memory (Host.Cell is `Nat × BitVec 8`). -/
abbrev Memory := List Host.Cell

/-- What a byte that nothing has listed reads as (log entry 1: DESIGN CHOICE). -/
def unlistedByte : Byte := 0

/-- The value at index `i`, where an unlisted index reads as `d`. -/
def Cells.get {α : Type} (d : α) : Cells α → Nat → α
  | [], _ => d
  | (k, v) :: m, i => if k = i then v else Cells.get d m i

/-- The value stored at index `i`: writing `d` removes the entry. -/
def Cells.set {α : Type} [DecidableEq α] (d : α) : Cells α → Nat → α → Cells α
  | [], i, x => if x = d then [] else [(i, x)]
  | (k, v) :: m, i, x =>
    if i < k then (if x = d then (k, v) :: m else (i, x) :: (k, v) :: m)
    else if i = k then (if x = d then m else (i, x) :: m)
    else (k, v) :: Cells.set d m i x

/-- The canonical form from index `lo` on, below `size`. -/
def Cells.wfFrom {α : Type} [DecidableEq α] (d : α) (size : Nat) : Nat → Cells α → Bool
  | _, [] => true
  | lo, (k, v) :: m => decide (lo ≤ k) && decide (k < size) && decide (v ≠ d) && Cells.wfFrom d size (k + 1) m

/-- The canonical form of a memory of `size` cells. -/
def Cells.wf {α : Type} [DecidableEq α] (d : α) (size : Nat) (m : Cells α) : Bool := Cells.wfFrom d size 0 m

/-- The byte at index `i` of a byte memory. -/
def Memory.get (m : Memory) (i : Nat) : Byte := Cells.get unlistedByte m i

/-- Store a byte at index `i` of a byte memory. -/
def Memory.set (m : Memory) (i : Nat) (v : Byte) : Memory := Cells.set unlistedByte m i v

/-- The canonical form of a byte memory of `size` cells. -/
def Memory.wf (size : Nat) (m : Memory) : Bool := Cells.wf unlistedByte size m

/-- The memory that holds the bytes of a list from index `i` on. -/
def Memory.ofBytes (i : Nat) : List Byte → Memory
  | [] => []
  | b :: bs => if b = unlistedByte then Memory.ofBytes (i + 1) bs else (i, b) :: Memory.ofBytes (i + 1) bs

/-- The pixel buffer (10_state.md R48): rows by `y`, each row's cells by `x`; an unlisted cell is 0. -/
abbrev Frame := Cells (Cells (BitVec 6))

/-- `frame[y][x]`. -/
def Frame.get (f : Frame) (y x : Nat) : BitVec 6 := Cells.get 0 (Cells.get [] f y) x

/-- `frame[y][x] <- c`. -/
def Frame.set (f : Frame) (y x : Nat) (c : BitVec 6) : Frame := Cells.set [] f y (Cells.set 0 (Cells.get [] f y) x c)

/-- The canonical form of the pixel buffer: 240 rows of 256 cells. -/
def Frame.wf (f : Frame) : Bool := Cells.wf [] 240 f && f.all fun row => Cells.wf 0 256 row.2

/-- The palette memory (10_state.md R46): 32 cells of 6 bits; an unlisted cell is 0. -/
abbrev Palette := Cells (BitVec 6)

/-- `palette[i]`. -/
def Palette.get (p : Palette) (i : Nat) : BitVec 6 := Cells.get 0 p i

/-- `palette[i] <- c`. -/
def Palette.set (p : Palette) (i : Nat) (c : BitVec 6) : Palette := Cells.set 0 p i c

/-- The canonical form of the palette: 32 cells, of which the four that alias others are never used
(10_state.md R46). -/
def Palette.wf (p : Palette) : Bool :=
  Cells.wf 0 32 p && p.all fun c => c.1 ≠ 0x10 && c.1 ≠ 0x14 && c.1 ≠ 0x18 && c.1 ≠ 0x1C

end Sys2Proof.Machine
end

