-- ==== Sys2Proof/Machine/Cartridge.lean ====
section
/-! DEFINITION. The cartridge as the CPU sees it (20_memory.md R86, R91) and the numbers of 00_scope.md R5. -/

namespace Sys2Proof.Machine

/-- `DOTS_PER_CPU_CYCLE` (00_scope.md R5). -/
def dotsPerCpuCycle : Nat := 3

/-- `DMA_CYCLES` (00_scope.md R5, 46_ppu_ports.md R352). -/
def dmaCycleCost : Nat := 513

/-- `INT_ENTRY_CYCLES` (00_scope.md R5, 60_exceptions.md R450). -/
def intEntryCycles : Nat := 7

/-- Dots in one scanline (47_ppu_timing_render.md R370). -/
def dotsPerScanline : Nat := 341

/-- Scanlines in one frame (47_ppu_timing_render.md R370). -/
def scanlinesPerFrame : Nat := 262

/-- Dots in one frame, 89342 (47_ppu_timing_render.md R372). -/
def dotsPerFrame : Nat := scanlinesPerFrame * dotsPerScanline

/-- The NMI vector (20_memory.md R91). -/
def nmiVector : Addr := 0xFFFA

/-- The reset vector (20_memory.md R91). -/
def resetVector : Addr := 0xFFFC

/-- The vector IRQ and BRK share (20_memory.md R91). -/
def irqVector : Addr := 0xFFFE

end Sys2Proof.Machine

namespace Sys2Proof

/-- `PRG_LEN` (20_memory.md R86): 16 KiB for each program block. -/
def Cartridge.prgLen (c : Cartridge) : Nat :=
  match c.prgBlocks with
  | .one => 16384
  | .two => 32768

/-- The index in `PRG` of a CPU address 0x8000 to 0xFFFF (20_memory.md R86). -/
def Cartridge.romIndex (c : Cartridge) (a : Addr) : Nat := (a.toNat - 0x8000) % c.prgLen

/-- The program byte at a CPU address 0x8000 to 0xFFFF (20_memory.md R86). -/
def Cartridge.romByte (c : Cartridge) (a : Addr) : Byte := Machine.Memory.get c.prg (c.romIndex a)

/-- The word at the reset vector, low byte first (10_state.md R60, 20_memory.md R95). -/
def Cartridge.resetPc (c : Cartridge) : Addr :=
  word (c.romByte (Machine.resetVector + 1)) (c.romByte Machine.resetVector)

/-- Both regions are in canonical form and no larger than their blocks. -/
def Cartridge.wf (c : Cartridge) : Bool :=
  Machine.Memory.wf c.prgLen c.prg && (match c.chr with | none => true | some m => Machine.Memory.wf 8192 m)

end Sys2Proof
end

