-- ==== Sys2Proof/Machine/State.lean ====
section
/-! DEFINITION. The state of the whole machine as plain data (10_state.md), the reasons it can stop, and the state
after reset. INVENTORY.md lists every field with its rule and reset value. -/

namespace Sys2Proof.Machine

/-- The status flags (10_state.md R26, R29). The reserved bit 5 is the constant 1 of `Flags.pack` and no state. -/
structure Flags where
  n : Bool
  v : Bool
  b : Bool
  d : Bool
  i : Bool
  z : Bool
  c : Bool
  deriving DecidableEq, Repr

/-- What a decode error records: the failing address and the opcode byte (10_state.md R34, 60_exceptions.md R460). -/
structure DecodeError where
  addr   : Addr
  opcode : Byte
  deriving DecidableEq, Repr

/-- The CPU registers and the CPU's hidden state (10_state.md R20 to R34). -/
structure Cpu where
  a          : Byte
  x          : Byte
  y          : Byte
  s          : Byte
  pc         : Addr
  p          : Flags
  nmiPending : Bool
  halted     : Option DecodeError
  deriving DecidableEq, Repr

/-- The picture unit (10_state.md R38 to R48). -/
structure Ppu where
  ctrl           : Byte
  mask           : Byte
  v              : BitVec 15
  t              : BitVec 15
  x              : BitVec 3
  w              : Bool
  vblank         : Bool
  sprite0Hit     : Bool
  spriteOverflow : Bool
  oamAddr        : Byte
  readBuffer     : Byte
  latch          : Byte
  oam            : List Host.Cell
  pattern        : List Host.Cell
  ntram          : List Host.Cell
  palette        : Palette
  scanline       : Nat
  dot            : Nat
  frame          : Frame
  deriving DecidableEq, Repr

/-- The whole machine: Cpu, Ppu, the bus's RAM, the cartridge, the parameters, the driver's counters, the host's
inputs and the outputs to the host. -/
structure State where
  cpu       : Cpu
  ppu       : Ppu
  /-- `RAM` (10_state.md R36). -/
  ram       : List Host.Cell
  /-- `PRG`, `CHR`, `MIRRORING` (10_state.md R37). -/
  cart      : Cartridge
  config    : Config
  /-- Dots still owed for CPU cycles already executed (10_state.md R50). -/
  dotDebt   : Nat
  /-- OAM-DMA cycles of the instruction in progress, not yet charged (10_state.md R50). -/
  dmaCycles : Nat
  /-- The cycle count the latest CPU step returned (40_addressing.md R160; log entry 8). -/
  cycles    : Nat
  /-- The host's input level `irq_line` (10_state.md R33; log entry 3). -/
  irqLine   : Bool
  /-- The `ext_write` stream, newest first (20_memory.md R89; log entry 5). -/
  extWrites : List (Addr × Byte)
  /-- The pixel buffer of the last completed `run_frame` (48_system_driver.md R429, R430; log entry 12). -/
  published : Option Frame
  /-- The index of the next free value (20_memory.md R89, R90; log entry 4). -/
  draws     : Nat
  deriving DecidableEq, Repr

/-- Why the machine stops with a fault. -/
inductive Fault where
  /-- Raised by the meaning of the 25 unmapped opcode bytes and again by every step of a halted machine
  (60_exceptions.md R460, R461). It reports the failing address and the opcode byte and carries the state at the
  stop. Safe: the spec itself stops the machine here. -/
  | decodeError (addr : Addr) (opcode : Byte) (stopped : State)
  deriving DecidableEq, Repr

/-- Why the model gives a step no meaning. -/
inductive Refusal where
  /-- Raised only by an arm of `exec` whose instruction has no meaning yet. Safe. -/
  | notModelled (mnemonic : String)
  /-- Raised by a CPU write of `page` 0x20 to 0x7F to the OAM-DMA trigger (46_ppu_ports.md R352,
  93_implementation_defined.md K14: the model refuses the run). Safe. -/
  | dmaSourceUnspecified (page : Byte)
  deriving DecidableEq, Repr

/-- What every machine operation answers. -/
abbrev Result := Host.Outcome State Fault Refusal

/-- `MEM_INIT` (10_state.md R62): the contents of every memory at power-up, as plain data; `pattern` counts only
where the cartridge has no pattern data (R63). -/
structure MemInit where
  ram     : List Host.Cell
  oam     : List Host.Cell
  pattern : List Host.Cell
  ntram   : List Host.Cell
  palette : Palette
  frame   : Frame
  deriving DecidableEq, Repr

/-- Every memory all zero (log entry 1: DESIGN CHOICE). -/
def MemInit.zero : MemInit := { ram := [], oam := [], pattern := [], ntram := [], palette := [], frame := [] }

/-- The flags after reset: `P = 0x24` (10_state.md R60). -/
def Flags.reset : Flags := { n := false, v := false, b := false, d := false, i := true, z := false, c := false }

/-- The CPU after reset, with the program counter the reset vector gives (10_state.md R60). -/
def Cpu.reset (pc : Addr) : Cpu :=
  { a := 0, x := 0, y := 0, s := 0xFD, pc := pc, p := Flags.reset, nmiPending := false, halted := none }

/-- The picture unit after reset (10_state.md R61 to R63). -/
def Ppu.reset (cart : Cartridge) (init : MemInit) : Ppu :=
  { ctrl := 0, mask := 0, v := 0, t := 0, x := 0, w := false,
    vblank := false, sprite0Hit := false, spriteOverflow := false,
    oamAddr := 0, readBuffer := 0, latch := 0,
    oam := init.oam, pattern := cart.chr.getD init.pattern, ntram := init.ntram, palette := init.palette,
    scanline := 0, dot := 0, frame := init.frame }

/-- A machine with the cartridge `cart` right after its first reset (48_system_driver.md R428). -/
def State.powerUp (config : Config) (cart : Cartridge) (init : MemInit) : State :=
  { cpu := Cpu.reset cart.resetPc, ppu := Ppu.reset cart init, ram := init.ram, cart := cart, config := config,
    dotDebt := 0, dmaCycles := 0, cycles := 0, irqLine := false, extWrites := [], published := none, draws := 0 }

/-- The machine right after reset, with the default parameters, the blank cartridge (log entry 2) and zero
memories (log entry 1). -/
def State.reset : State := State.powerUp Config.default Cartridge.blank MemInit.zero

end Sys2Proof.Machine
end

