-- ==== Sys2Proof/Machine/Flags.lean ====
section
/-! DEFINITION. The status byte and every flag computation (10_state.md R26 to R31; 42_logic_shift_bit.md,
43_compare_incdec_arith.md). -/

namespace Sys2Proof.Machine

/-- `Pack(b4)` (10_state.md R26): bit 5 is 1, bit 4 is `b4`. -/
def Flags.pack (p : Flags) (b4 : Bool) : Byte :=
  BitVec.ofNat 8 (p.n.toNat * 128 + p.v.toNat * 64 + 32 + b4.toNat * 16 + p.d.toNat * 8 + p.i.toNat * 4 +
    p.z.toNat * 2 + p.c.toNat)

/-- `Unpack(b)` (10_state.md R27): bit 5 is ignored. -/
def Flags.unpack (b : Byte) : Flags :=
  { n := b.getLsbD 7, v := b.getLsbD 6, b := b.getLsbD 4, d := b.getLsbD 3, i := b.getLsbD 2, z := b.getLsbD 1,
    c := b.getLsbD 0 }

/-- `SetNZ(v)` (10_state.md R28). -/
def Flags.setNZ (p : Flags) (v : Byte) : Flags := { p with n := v.getLsbD 7, z := decide (v = 0) }

/-- The flags of comparing register `r` with `m` (43_compare_incdec_arith.md R230): unsigned, `V` not written. -/
def Flags.compare (p : Flags) (r m : Byte) : Flags :=
  { p with c := decide (m.toNat ≤ r.toNat), z := decide (r = m), n := (r - m).getLsbD 7 }

/-- The flags of BIT (42_logic_shift_bit.md R217). -/
def Flags.bit (p : Flags) (a m : Byte) : Flags :=
  { p with z := decide (a &&& m = 0), n := m.getLsbD 7, v := m.getLsbD 6 }

/-- A result byte with the carry and overflow it leaves. -/
structure Sum where
  result   : Byte
  carry    : Bool
  overflow : Bool
  deriving DecidableEq, Repr

/-- The sum of ADC (43_compare_incdec_arith.md R239): `s = a0 + M + C`; the overflow compares sign bits. -/
def adcSum (a m : Byte) (c : Bool) : Sum :=
  let s := a.toNat + m.toNat + c.toNat
  let r := BitVec.ofNat 8 s
  { result := r, carry := decide (255 < s), overflow := decide ((a ^^^ r) &&& (m ^^^ r) &&& 0x80 ≠ 0) }

/-- The difference of SBC (43_compare_incdec_arith.md R240): ADC of the complemented operand `255 - M`. -/
def sbcSum (a m : Byte) (c : Bool) : Sum := adcSum a (255 - m) c

/-- The flags ADC and SBC leave: `C`, `V` from the sum, `N`, `Z` from its result. -/
def Flags.setSum (p : Flags) (s : Sum) : Flags := { p with c := s.carry, v := s.overflow }.setNZ s.result

/-- A shifted byte and the bit shifted out. -/
structure Shifted where
  result : Byte
  carry  : Bool
  deriving DecidableEq, Repr

/-- ASL (42_logic_shift_bit.md R213). -/
def aslByte (m : Byte) : Shifted := { result := m <<< 1, carry := m.getLsbD 7 }

/-- LSR (42_logic_shift_bit.md R214). -/
def lsrByte (m : Byte) : Shifted := { result := m >>> 1, carry := m.getLsbD 0 }

/-- ROL through the carry `c` (42_logic_shift_bit.md R215). -/
def rolByte (m : Byte) (c : Bool) : Shifted :=
  { result := (m <<< 1) ||| BitVec.ofNat 8 c.toNat, carry := m.getLsbD 7 }

/-- ROR through the carry `c` (42_logic_shift_bit.md R216). -/
def rorByte (m : Byte) (c : Bool) : Shifted :=
  { result := (m >>> 1) ||| BitVec.ofNat 8 (c.toNat * 128), carry := m.getLsbD 0 }

/-- The flags a shift leaves: `C` the bit shifted out, `N`, `Z` from the result. -/
def Flags.setShifted (p : Flags) (r : Shifted) : Flags := { p with c := r.carry }.setNZ r.result

end Sys2Proof.Machine
end

