-- ==== Sys2Proof/Machine/Vram.lean ====
section
/-! DEFINITION. The picture unit's address space (20_memory.md R100 to R106) and the bit fields of the scroll
registers (10_state.md R40). -/

namespace Sys2Proof.Machine

/-- `w` with its `len` bits from bit `lo` on replaced by the low bits of `f`. -/
def putField {n : Nat} (w : BitVec n) (lo len : Nat) (f : BitVec n) : BitVec n :=
  let m : BitVec n := BitVec.ofNat n (2 ^ len - 1)
  (w &&& ~~~(m <<< lo)) ||| ((f &&& m) <<< lo)

/-- The `len` bits of `w` from bit `lo` on, as a number (00_scope.md R7: `w[lo + len - 1 : lo]`). -/
def field {n : Nat} (w : BitVec n) (lo len : Nat) : Nat := (w.extractLsb' lo len).toNat

/-- The cell of `ntram` behind a nametable address 0x2000 to 0x2FFF: the four logical tables folded onto two by
`MIRRORING` (20_memory.md R102). -/
def ntramIndex (mir : Mirroring) (a : Nat) : Nat :=
  let n := a / 0x400 % 4
  let o := a % 0x400
  let p := match mir with
    | .vertical => n % 2
    | .horizontal => n / 2
  p * 1024 + o

/-- The cell of `palette` behind a palette address (20_memory.md R104). -/
def paletteIndex (a : Nat) : Nat :=
  let i := a % 32
  if i = 0x10 ∨ i = 0x14 ∨ i = 0x18 ∨ i = 0x1C then i - 0x10 else i

/-- The storage cell a video address selects (20_memory.md R100 to R104). -/
inductive VramCell where
  | pattern (i : Nat)
  | ntram (i : Nat)
  | palette (i : Nat)
  deriving DecidableEq, Repr

/-- The routing of the 16 KiB video space: the address wraps at 0x4000 (R100), 0x3000 to 0x3EFF alias 0x2000 to
0x2EFF (R103). -/
def vramCell (mir : Mirroring) (a : Nat) : VramCell :=
  let a := a % 0x4000
  if a < 0x2000 then .pattern a
  else if a < 0x3000 then .ntram (ntramIndex mir a)
  else if a < 0x3F00 then .ntram (ntramIndex mir (a - 0x1000))
  else .palette (paletteIndex a)

/-- `VramRead(a)` (20_memory.md R100 to R104); it changes nothing (R105). -/
def vramRead (mir : Mirroring) (u : Ppu) (a : Nat) : Byte :=
  match vramCell mir a with
  | .pattern i => Memory.get u.pattern i
  | .ntram i => Memory.get u.ntram i
  | .palette i => (Palette.get u.palette i).setWidth 8

/-- `VramWrite(a, d)` (20_memory.md R100 to R104): a palette cell keeps the low 6 bits. -/
def vramWrite (mir : Mirroring) (u : Ppu) (a : Nat) (d : Byte) : Ppu :=
  match vramCell mir a with
  | .pattern i => { u with pattern := Memory.set u.pattern i d }
  | .ntram i => { u with ntram := Memory.set u.ntram i d }
  | .palette i => { u with palette := Palette.set u.palette i (d.setWidth 6) }

/-- `OAM[i]` (10_state.md R43). -/
def Ppu.oamByte (u : Ppu) (i : Nat) : Byte := Memory.get u.oam i

/-- Rendering enabled: mask bit 3 or mask bit 4 (46_ppu_ports.md R334). -/
def Ppu.renderingEnabled (u : Ppu) : Bool := u.mask.getLsbD 3 || u.mask.getLsbD 4

end Sys2Proof.Machine
end

