-- ==== Sys2Proof/Machine/Ports.lean ====
section
/-! DEFINITION. The picture unit's eight CPU-visible ports (46_ppu_ports.md). -/

namespace Sys2Proof.Machine

/-- The ports by number (46_ppu_ports.md, the table of ports). -/
inductive Port where
  | control
  | mask
  | status
  | oamAddr
  | oamData
  | scroll
  | vramAddr
  | data
  deriving DecidableEq, Repr

/-- The port of a CPU address in the window: `a mod 8` (20_memory.md R85). -/
def portOf (a : Addr) : Port :=
  match a.toNat % 8 with
  | 0 => .control
  | 1 => .mask
  | 2 => .status
  | 3 => .oamAddr
  | 4 => .oamData
  | 5 => .scroll
  | 6 => .vramAddr
  | _ => .data

/-- The video address of a data-port access: `v mod 0x4000` (46_ppu_ports.md R346). -/
def Ppu.dataAddr (u : Ppu) : Nat := u.v.toNat % 0x4000

/-- `IncV()`: `v` plus 1, or plus 32 when control bit 2 is set, modulo 32768 (46_ppu_ports.md R346). -/
def Ppu.incV (u : Ppu) : Ppu := { u with v := u.v + (if u.ctrl.getLsbD 2 then 32 else 1) }

/-- The byte a status read returns: bits 7, 6, 5 the flags, bits 4 to 0 the latch (46_ppu_ports.md R336). -/
def Ppu.statusByte (u : Ppu) : Byte :=
  BitVec.ofNat 8 (u.vblank.toNat * 128 + u.sprite0Hit.toNat * 64 + u.spriteOverflow.toNat * 32 + field u.latch 0 5)

/-- Read of port 2 (46_ppu_ports.md R336): it clears `vblank` and `w`. -/
def readStatus (u : Ppu) : Byte × Ppu :=
  let r := u.statusByte
  (r, { u with vblank := false, w := false, latch := r })

/-- Read of port 4 (46_ppu_ports.md R341): no increment. -/
def readOamData (u : Ppu) : Byte × Ppu :=
  let r := u.oamByte u.oamAddr.toNat
  (r, { u with latch := r })

/-- Read of port 7 (46_ppu_ports.md R348): buffered below the palette, immediate in it. -/
def readData (mir : Mirroring) (u : Ppu) : Byte × Ppu :=
  let a := u.dataAddr
  if a < 0x3F00 then
    let r := u.readBuffer
    (r, { Ppu.incV { u with readBuffer := vramRead mir u a } with latch := r })
  else
    let r := vramRead mir u a
    (r, { Ppu.incV { u with readBuffer := vramRead mir u (a - 0x1000) } with latch := r })

/-- `PortRead(p)` (46_ppu_ports.md R330): a write-only port returns the latch and changes nothing. -/
def portRead (mir : Mirroring) (p : Port) (u : Ppu) : Byte × Ppu :=
  match p with
  | .status => readStatus u
  | .oamData => readOamData u
  | .data => readData mir u
  | .control | .mask | .oamAddr | .scroll | .vramAddr => (u.latch, u)

/-- Write of port 0 (46_ppu_ports.md R332): `t[11:10] <- d[1:0]`. -/
def writeControl (d : Byte) (u : Ppu) : Ppu := { u with ctrl := d, t := putField u.t 10 2 (d.setWidth 15) }

/-- Write of port 1 (46_ppu_ports.md R334). -/
def writeMask (d : Byte) (u : Ppu) : Ppu := { u with mask := d }

/-- Write of port 3 (46_ppu_ports.md R338). -/
def writeOamAddr (d : Byte) (u : Ppu) : Ppu := { u with oamAddr := d }

/-- Write of port 4 (46_ppu_ports.md R340). -/
def writeOamData (d : Byte) (u : Ppu) : Ppu :=
  { u with oam := Memory.set u.oam u.oamAddr.toNat d, oamAddr := u.oamAddr + 1 }

/-- Write of port 5 (46_ppu_ports.md R342): horizontal half, then vertical half. -/
def writeScroll (d : Byte) (u : Ppu) : Ppu :=
  if u.w then
    { u with t := putField (putField u.t 12 3 (d.setWidth 15)) 5 5 ((d >>> 3).setWidth 15), w := false }
  else
    { u with t := putField u.t 0 5 ((d >>> 3).setWidth 15), x := d.setWidth 3, w := true }

/-- Write of port 6 (46_ppu_ports.md R344): high half, then low half and the copy of `t` to `v`. -/
def writeVramAddr (d : Byte) (u : Ppu) : Ppu :=
  if u.w then
    let t := putField u.t 0 8 (d.setWidth 15)
    { u with t := t, v := t, w := false }
  else
    { u with t := putField (putField u.t 8 6 (d.setWidth 15)) 14 1 0, w := true }

/-- Write of port 7 (46_ppu_ports.md R347). -/
def writeData (mir : Mirroring) (d : Byte) (u : Ppu) : Ppu := Ppu.incV (vramWrite mir u u.dataAddr d)

/-- `PortWrite(p, d)` (46_ppu_ports.md R331): every write loads the latch first; port 2 does nothing more (R337). -/
def portWrite (mir : Mirroring) (p : Port) (d : Byte) (u : Ppu) : Ppu :=
  let u := { u with latch := d }
  match p with
  | .control => writeControl d u
  | .mask => writeMask d u
  | .status => u
  | .oamAddr => writeOamAddr d u
  | .oamData => writeOamData d u
  | .scroll => writeScroll d u
  | .vramAddr => writeVramAddr d u
  | .data => writeData mir d u

end Sys2Proof.Machine
end

