-- ==== Sys2Proof/Machine/Ops.lean ====
section
/-! DEFINITION. The named operations over registers, the CPU bus, the stack and the program counter, and taking and
returning from an interrupt (10_state.md R24 to R28, 20_memory.md R80 to R97, 46_ppu_ports.md R352,
60_exceptions.md R445 to R461). -/

namespace Sys2Proof.Machine

/-- Go on from a next state; a stop stays a stop. -/
def Result.andThen (r : Result) (f : State → Result) : Result :=
  match r with
  | .next s => f s
  | .fault e => .fault e
  | .refused e => .refused e

/-! ## Registers -/

/-- `A <- v`. -/
def State.setA (s : State) (v : Byte) : State := { s with cpu := { s.cpu with a := v } }

/-- `X <- v`. -/
def State.setX (s : State) (v : Byte) : State := { s with cpu := { s.cpu with x := v } }

/-- `Y <- v`. -/
def State.setY (s : State) (v : Byte) : State := { s with cpu := { s.cpu with y := v } }

/-- `S <- v`. -/
def State.setS (s : State) (v : Byte) : State := { s with cpu := { s.cpu with s := v } }

/-- `PC <- w`. -/
def State.setPc (s : State) (w : Addr) : State := { s with cpu := { s.cpu with pc := w } }

/-- Write the flags. -/
def State.setP (s : State) (p : Flags) : State := { s with cpu := { s.cpu with p := p } }

/-- `SetNZ(v)` (10_state.md R28). -/
def State.setNZ (s : State) (v : Byte) : State := s.setP (s.cpu.p.setNZ v)

/-- The step's cycle count (40_addressing.md R160 (6)). -/
def State.charge (s : State) (n : Nat) : State := { s with cycles := n }

/-! ## The CPU bus -/

/-- What a CPU address resolves to (20_memory.md R81). -/
inductive Target where
  | ram (i : Nat)
  | port (p : Port)
  | collaborator
  | dmaTrigger
  | openBus
  | rom (i : Nat)
  deriving DecidableEq, Repr

/-- The routing table (20_memory.md R81, R84 to R90): each address resolves to exactly one target. -/
def route (c : Cartridge) (a : Addr) : Target :=
  let n := a.toNat
  if n < 0x2000 then .ram (n % 0x800)
  else if n < 0x4000 then .port (portOf a)
  else if n = 0x4014 then .dmaTrigger
  else if n < 0x4018 then .collaborator
  else if n < 0x8000 then .openBus
  else .rom (c.romIndex a)

/-- `MemRead(a, 1)` (20_memory.md R82): the byte, and the state after the read's side effects. -/
def memRead (a : Addr) (s : State) : Byte × State :=
  match route s.cart a with
  | .ram i => (Memory.get s.ram i, s)
  | .port p =>
    let r := portRead s.cart.mirroring p s.ppu
    (r.1, { s with ppu := r.2 })
  | .collaborator => (Config.extRead s.draws a, { s with draws := s.draws + 1 })
  | .dmaTrigger | .openBus => (Config.openBusRead s.draws, { s with draws := s.draws + 1 })
  | .rom i => (Memory.get s.cart.prg i, s)

/-- The storage cell behind an address, read without the bus: RAM and ROM only. -/
def peek (s : State) (a : Addr) : Option Byte :=
  match route s.cart a with
  | .ram i => some (Memory.get s.ram i)
  | .rom i => some (Memory.get s.cart.prg i)
  | _ => none

/-- The row of 20_memory.md R81 for a write to any target but the DMA trigger: a write to ROM or open bus changes
nothing (R87, R90), one to the collaborator window is reported (R89). -/
def busStore (a : Addr) (v : Byte) (s : State) : State :=
  match route s.cart a with
  | .ram i => { s with ram := Memory.set s.ram i v }
  | .port p => { s with ppu := portWrite s.cart.mirroring p v s.ppu }
  | .collaborator => { s with extWrites := (a, v) :: s.extWrites }
  | .dmaTrigger | .openBus | .rom _ => s

/-- `DmaSource(a)` (46_ppu_ports.md R352): RAM with its mirrors, or program ROM, read directly. It is asked only
about pages 0x00 to 0x1F and 0x80 to 0xFF, where `peek` answers. -/
def dmaSource (s : State) (a : Nat) : Byte := (peek s (BitVec.ofNat 16 a)).getD 0

/-- The 256 stores of an OAM-DMA copy, in order (46_ppu_ports.md R352). -/
def dmaCopy (s : State) (pg : Byte) : Memory :=
  (List.range 256).foldl
    (fun oam i => Memory.set oam ((s.ppu.oamAddr.toNat + i) % 256) (dmaSource s (pg.toNat * 256 + i))) s.ppu.oam

/-- The spec gives the copy from this page no meaning (46_ppu_ports.md R352). -/
def dmaUnspecified (pg : Byte) : Bool := decide (0x20 ≤ pg.toNat) && decide (pg.toNat ≤ 0x7F)

/-- `OamDma(pg)` (46_ppu_ports.md R352). -/
def oamDma (pg : Byte) (s : State) : Result :=
  if dmaUnspecified pg then .refused (.dmaSourceUnspecified pg)
  else .next { s with ppu := { s.ppu with oam := dmaCopy s pg }, dmaCycles := s.dmaCycles + dmaCycleCost }

/-- `MemWrite(a, 1, v)` (20_memory.md R83, R88). -/
def memWrite (a : Addr) (v : Byte) (s : State) : Result :=
  if route s.cart a = .dmaTrigger then oamDma v s else .next (busStore a v s)

/-- `Read16(a)` (20_memory.md R95). -/
def read16 (a : Addr) (s : State) : Addr × State :=
  let l := memRead a s
  let h := memRead (a + 1) l.2
  (word h.1 l.1, h.2)

/-- `Read16ZP(z)` (20_memory.md R96): the pointer wraps inside page zero. -/
def read16ZP (z : Byte) (s : State) : Addr × State :=
  let l := memRead (word 0 z) s
  let h := memRead (word 0 (z + 1)) l.2
  (word h.1 l.1, h.2)

/-- `Read16Bug(a)` (20_memory.md R97): the pointer wraps inside its page. -/
def read16Bug (a : Addr) (s : State) : Addr × State :=
  let l := memRead a s
  let h := memRead (word (hi8 a) (lo8 a + 1)) l.2
  (word h.1 l.1, h.2)

/-! ## Instruction bytes and the stack -/

/-- `Fetch8()` (40_addressing.md R161). -/
def fetch8 (s : State) : Byte × State :=
  let r := memRead s.cpu.pc s
  (r.1, r.2.setPc (s.cpu.pc + 1))

/-- `Fetch16()` (40_addressing.md R161). -/
def fetch16 (s : State) : Addr × State :=
  let l := fetch8 s
  let h := fetch8 l.2
  (word h.1 l.1, h.2)

/-- The address the stack pointer designates (10_state.md R23): always page 1. -/
def stackAddr (p : Byte) : Addr := word 0x01 p

/-- `Push(v)` (10_state.md R24). Page 1 is RAM, so the write never reaches the DMA trigger. -/
def push (v : Byte) (s : State) : State := (busStore (stackAddr s.cpu.s) v s).setS (s.cpu.s - 1)

/-- `Pull()` (10_state.md R24). -/
def pull (s : State) : Byte × State := memRead (stackAddr (s.cpu.s + 1)) (s.setS (s.cpu.s + 1))

/-! ## Interrupts and the decode error -/

/-- `Enter(vec, b)` (60_exceptions.md R450), shared by NMI, IRQ and BRK: the break flag, the three pushes, the
interrupt-disable flag, the vector. -/
def enter (vec : Addr) (b : Bool) (s : State) : State :=
  let s := s.setP { s.cpu.p with b := b }
  let s := push (hi8 s.cpu.pc) s
  let s := push (lo8 s.cpu.pc) s
  let s := push (s.cpu.p.pack b) s
  let s := s.setP { s.cpu.p with i := true }
  let r := read16 vec s
  r.2.setPc r.1

/-- The return RTI makes (44_stack_control_flags.md R268, 60_exceptions.md R453): status, then the exact address. -/
def leave (s : State) : State :=
  let p := pull s
  let s := p.2.setP (Flags.unpack p.1)
  let l := pull s
  let h := pull l.2
  h.2.setPc (word h.1 l.1)

/-- Taking the NMI (60_exceptions.md R447). -/
def takeNmi (s : State) : State :=
  (enter nmiVector false { s with cpu := { s.cpu with nmiPending := false } }).charge intEntryCycles

/-- Taking an IRQ (60_exceptions.md R446). -/
def takeIrq (s : State) : State := (enter irqVector false s).charge intEntryCycles

/-- What the poll at an instruction boundary finds (60_exceptions.md R445). -/
inductive Poll where
  | nmi
  | irq
  | instruction
  deriving DecidableEq, Repr

/-- The poll (60_exceptions.md R445, R449): NMI before IRQ. -/
def poll (s : State) : Poll :=
  if s.cpu.nmiPending then .nmi
  else if s.irqLine && !s.cpu.p.i then .irq
  else .instruction

/-- `raise DecodeError(a0, op)` (60_exceptions.md R460): `halted` records it, nothing else changes, the machine
stops. -/
def raiseDecodeError (a0 : Addr) (op : Byte) (s : State) : Result :=
  .fault (.decodeError a0 op { s with cpu := { s.cpu with halted := some { addr := a0, opcode := op } } })

/-- The report a halted machine gives again and again (60_exceptions.md R461): no state changes. -/
def reportHalt (e : DecodeError) (s : State) : Result := .fault (.decodeError e.addr e.opcode s)

end Sys2Proof.Machine
end

