-- ==== Sys2Proof/Machine/Operands.lean ====
section
/-! DEFINITION. The addressing modes and the access classes (40_addressing.md). A mode is resolved in a state
whose program counter already stands after the instruction's last byte (R160 (4), R161). -/

namespace Sys2Proof.Machine

/-- The modes that name a byte of memory, with their operand (40_addressing.md R167 to R172, R174, R175). -/
inductive AddrMode where
  | zeropage (b : Byte)
  | zeropageX (b : Byte)
  | zeropageY (b : Byte)
  | absolute (w : Addr)
  | absoluteX (w : Addr)
  | absoluteY (w : Addr)
  | indexIndirect (b : Byte)
  | indirectIndex (b : Byte)
  deriving DecidableEq, Repr

/-- An effective address and its page-crossing bit (40_addressing.md R162). -/
structure EffAddr where
  addr    : Addr
  crossed : Bool
  deriving DecidableEq, Repr

/-- `crossed` (40_addressing.md R163): the high bytes differ. -/
def pageCrossed (base ea : Addr) : Bool := decide (hi8 base ≠ hi8 ea)

/-- A base address plus an index, modulo 65536 (40_addressing.md R171, R172, R175). -/
def indexed (base : Addr) (i : Byte) : EffAddr :=
  let ea := base + i.setWidth 16
  { addr := ea, crossed := pageCrossed base ea }

/-- An address in page zero (40_addressing.md R167). -/
def zeroPage (b : Byte) : EffAddr := { addr := word 0 b, crossed := false }

/-- The effective address of a mode, and the state after its pointer reads (40_addressing.md R167 to R175). -/
def effAddr (m : AddrMode) (s : State) : EffAddr × State :=
  match m with
  | .zeropage b => (zeroPage b, s)
  | .zeropageX b => (zeroPage (b + s.cpu.x), s)
  | .zeropageY b => (zeroPage (b + s.cpu.y), s)
  | .absolute w => ({ addr := w, crossed := false }, s)
  | .absoluteX w => (indexed w s.cpu.x, s)
  | .absoluteY w => (indexed w s.cpu.y, s)
  | .indexIndirect b =>
    let r := read16ZP (b + s.cpu.x) s
    ({ addr := r.1, crossed := false }, r.2)
  | .indirectIndex b =>
    let r := read16ZP b s
    (indexed r.1 s.cpu.y, r.2)

/-- Where a reading instruction takes its operand from: byte 1 itself or memory (40_addressing.md R166, R177). -/
inductive Source where
  | immediate (b : Byte)
  | memory (m : AddrMode)
  deriving DecidableEq, Repr

/-- An operand value, its page-crossing bit and the state after the operand read. -/
structure Operand where
  value   : Byte
  crossed : Bool
  state   : State
  deriving DecidableEq, Repr

/-- The operand read of the class `read` (40_addressing.md R177): after all instruction and pointer bytes. -/
def readSource (src : Source) (s : State) : Operand :=
  match src with
  | .immediate b => { value := b, crossed := false, state := s }
  | .memory m =>
    let e := effAddr m s
    let r := memRead e.1.addr e.2
    { value := r.1, crossed := e.1.crossed, state := r.2 }

/-- The cycle column of the opcode map (30_encoding.md R136, R143): `n`, or `n+p`. -/
inductive Cost where
  | fixed (n : Nat)
  | plusP (n : Nat)
  deriving DecidableEq, Repr

/-- `base + p` (40_addressing.md R178). -/
def Cost.total : Cost → Bool → Nat
  | .fixed n, _ => n
  | .plusP n, crossed => n + crossed.toNat

/-- An instruction of the class `read` whose effect on the operand value is `f`. -/
def readClass (f : Byte → State → State) (src : Source) (c : Cost) (s : State) : Result :=
  let o := readSource src s
  .next ((f o.value o.state).charge (c.total o.crossed))

/-- An instruction of the class `write` that stores `f`: one write and no read. -/
def writeClass (f : State → Byte) (m : AddrMode) (n : Nat) (s : State) : Result :=
  let e := effAddr m s
  (memWrite e.1.addr (f e.2) e.2).andThen fun s => .next (s.charge n)

/-- An instruction of the class `read-modify-write` in a memory mode: one read, `f`, one write of the same
address; then `g` takes the written value (45_unofficial.md R300). -/
def rmwClass (f : Byte → State → Byte × State) (g : Byte → State → State) (m : AddrMode) (n : Nat) (s : State) : Result :=
  let e := effAddr m s
  let o := memRead e.1.addr e.2
  let r := f o.1 o.2
  (memWrite e.1.addr r.1 r.2).andThen fun s => .next ((g r.1 s).charge n)

/-- A read-modify-write instruction in accumulator mode: no bus access (40_addressing.md R177). -/
def accClass (f : Byte → State → Byte × State) (n : Nat) (s : State) : Result :=
  let r := f s.cpu.a s
  .next ((r.2.setA r.1).charge n)

/-- An implied instruction that touches only registers (40_addressing.md R164). -/
def impliedClass (f : State → State) (n : Nat) (s : State) : Result := .next ((f s).charge n)

/-- The target of a branch: the displacement is relative to the next instruction (40_addressing.md R176). -/
def branchTarget (pcNext : Addr) (d : Byte) : Addr := pcNext + d.signExtend 16

/-- `Branch(cond)` (44_stack_control_flags.md R269). -/
def branchClass (cond : Flags → Bool) (d : Byte) (s : State) : Result :=
  if cond s.cpu.p then
    let target := branchTarget s.cpu.pc d
    .next ((s.setPc target).charge (3 + (pageCrossed s.cpu.pc target).toNat))
  else .next (s.charge 2)

end Sys2Proof.Machine
end

