-- ==== Sys2Proof/Machine/LoadStore.lean ====
section
/-! DEFINITION. Loads, stores and register transfers (41_load_store_transfer.md). -/

namespace Sys2Proof.Machine

/-- LDA (R180): `A <- M; SetNZ(A)`. -/
def loadA (m : Byte) (s : State) : State := (s.setA m).setNZ m

/-- LDX (R181): `X <- M; SetNZ(X)`. -/
def loadX (m : Byte) (s : State) : State := (s.setX m).setNZ m

/-- LDY (R182): `Y <- M; SetNZ(Y)`. -/
def loadY (m : Byte) (s : State) : State := (s.setY m).setNZ m

/-- The byte STA stores (R183). -/
def regA (s : State) : Byte := s.cpu.a

/-- The byte STX stores (R184). -/
def regX (s : State) : Byte := s.cpu.x

/-- The byte STY stores (R185). -/
def regY (s : State) : Byte := s.cpu.y

/-- TAX (R186). -/
def transferAX (s : State) : State := loadX s.cpu.a s

/-- TAY (R187). -/
def transferAY (s : State) : State := loadY s.cpu.a s

/-- TXA (R188). -/
def transferXA (s : State) : State := loadA s.cpu.x s

/-- TYA (R189). -/
def transferYA (s : State) : State := loadA s.cpu.y s

/-- TSX (R190). -/
def transferSX (s : State) : State := loadX s.cpu.s s

/-- TXS (R191): the one transfer that writes no flag. -/
def transferXS (s : State) : State := s.setS s.cpu.x

/-- 0xA1 LDA indexIndirect (R180, R174). -/
def execLdaIndexIndirect (b : Byte) (s : State) : Result := readClass loadA (.memory (.indexIndirect b)) (.fixed 6) s

/-- 0xA5 LDA zeropage (R180, R167). -/
def execLdaZeropage (b : Byte) (s : State) : Result := readClass loadA (.memory (.zeropage b)) (.fixed 3) s

/-- 0xA9 LDA immediate (R180, R166). -/
def execLdaImmediate (b : Byte) (s : State) : Result := readClass loadA (.immediate b) (.fixed 2) s

/-- 0xAD LDA absolute (R180, R170). -/
def execLdaAbsolute (w : Addr) (s : State) : Result := readClass loadA (.memory (.absolute w)) (.fixed 4) s

/-- 0xB1 LDA indirectIndex (R180, R175). -/
def execLdaIndirectIndex (b : Byte) (s : State) : Result := readClass loadA (.memory (.indirectIndex b)) (.plusP 5) s

/-- 0xB5 LDA zeropageX (R180, R168). -/
def execLdaZeropageX (b : Byte) (s : State) : Result := readClass loadA (.memory (.zeropageX b)) (.fixed 4) s

/-- 0xB9 LDA absoluteY (R180, R172). -/
def execLdaAbsoluteY (w : Addr) (s : State) : Result := readClass loadA (.memory (.absoluteY w)) (.plusP 4) s

/-- 0xBD LDA absoluteX (R180, R171). -/
def execLdaAbsoluteX (w : Addr) (s : State) : Result := readClass loadA (.memory (.absoluteX w)) (.plusP 4) s

/-- 0xA2 LDX immediate (R181, R166). -/
def execLdxImmediate (b : Byte) (s : State) : Result := readClass loadX (.immediate b) (.fixed 2) s

/-- 0xA6 LDX zeropage (R181, R167). -/
def execLdxZeropage (b : Byte) (s : State) : Result := readClass loadX (.memory (.zeropage b)) (.fixed 3) s

/-- 0xAE LDX absolute (R181, R170). -/
def execLdxAbsolute (w : Addr) (s : State) : Result := readClass loadX (.memory (.absolute w)) (.fixed 4) s

/-- 0xB6 LDX zeropageY (R181, R169). -/
def execLdxZeropageY (b : Byte) (s : State) : Result := readClass loadX (.memory (.zeropageY b)) (.fixed 4) s

/-- 0xBE LDX absoluteY (R181, R172). -/
def execLdxAbsoluteY (w : Addr) (s : State) : Result := readClass loadX (.memory (.absoluteY w)) (.plusP 4) s

/-- 0xA0 LDY immediate (R182, R166). -/
def execLdyImmediate (b : Byte) (s : State) : Result := readClass loadY (.immediate b) (.fixed 2) s

/-- 0xA4 LDY zeropage (R182, R167). -/
def execLdyZeropage (b : Byte) (s : State) : Result := readClass loadY (.memory (.zeropage b)) (.fixed 3) s

/-- 0xAC LDY absolute (R182, R170). -/
def execLdyAbsolute (w : Addr) (s : State) : Result := readClass loadY (.memory (.absolute w)) (.fixed 4) s

/-- 0xB4 LDY zeropageX (R182, R168). -/
def execLdyZeropageX (b : Byte) (s : State) : Result := readClass loadY (.memory (.zeropageX b)) (.fixed 4) s

/-- 0xBC LDY absoluteX (R182, R171). -/
def execLdyAbsoluteX (w : Addr) (s : State) : Result := readClass loadY (.memory (.absoluteX w)) (.plusP 4) s

/-- 0x81 STA indexIndirect (R183, R174). -/
def execStaIndexIndirect (b : Byte) (s : State) : Result := writeClass regA (.indexIndirect b) 6 s

/-- 0x85 STA zeropage (R183, R167). -/
def execStaZeropage (b : Byte) (s : State) : Result := writeClass regA (.zeropage b) 3 s

/-- 0x8D STA absolute (R183, R170). -/
def execStaAbsolute (w : Addr) (s : State) : Result := writeClass regA (.absolute w) 4 s

/-- 0x91 STA indirectIndex (R183, R175). -/
def execStaIndirectIndex (b : Byte) (s : State) : Result := writeClass regA (.indirectIndex b) 6 s

/-- 0x95 STA zeropageX (R183, R168). -/
def execStaZeropageX (b : Byte) (s : State) : Result := writeClass regA (.zeropageX b) 4 s

/-- 0x99 STA absoluteY (R183, R172). -/
def execStaAbsoluteY (w : Addr) (s : State) : Result := writeClass regA (.absoluteY w) 5 s

/-- 0x9D STA absoluteX (R183, R171). -/
def execStaAbsoluteX (w : Addr) (s : State) : Result := writeClass regA (.absoluteX w) 5 s

/-- 0x86 STX zeropage (R184, R167). -/
def execStxZeropage (b : Byte) (s : State) : Result := writeClass regX (.zeropage b) 3 s

/-- 0x8E STX absolute (R184, R170). -/
def execStxAbsolute (w : Addr) (s : State) : Result := writeClass regX (.absolute w) 4 s

/-- 0x96 STX zeropageY (R184, R169). -/
def execStxZeropageY (b : Byte) (s : State) : Result := writeClass regX (.zeropageY b) 4 s

/-- 0x84 STY zeropage (R185, R167). -/
def execStyZeropage (b : Byte) (s : State) : Result := writeClass regY (.zeropage b) 3 s

/-- 0x8C STY absolute (R185, R170). -/
def execStyAbsolute (w : Addr) (s : State) : Result := writeClass regY (.absolute w) 4 s

/-- 0x94 STY zeropageX (R185, R168). -/
def execStyZeropageX (b : Byte) (s : State) : Result := writeClass regY (.zeropageX b) 4 s

/-- 0xAA TAX implied (R186). -/
def execTax (s : State) : Result := impliedClass transferAX 2 s

/-- 0xA8 TAY implied (R187). -/
def execTay (s : State) : Result := impliedClass transferAY 2 s

/-- 0x8A TXA implied (R188). -/
def execTxa (s : State) : Result := impliedClass transferXA 2 s

/-- 0x98 TYA implied (R189). -/
def execTya (s : State) : Result := impliedClass transferYA 2 s

/-- 0xBA TSX implied (R190). -/
def execTsx (s : State) : Result := impliedClass transferSX 2 s

/-- 0x9A TXS implied (R191). -/
def execTxs (s : State) : Result := impliedClass transferXS 2 s

end Sys2Proof.Machine
end

