-- ==== Sys2Proof/Machine/Logic.lean ====
section
/-! DEFINITION. Logic, shifts, rotates and BIT (42_logic_shift_bit.md). -/

namespace Sys2Proof.Machine

/-- AND (R210): `A <- A & M; SetNZ(A)`. -/
def andA (m : Byte) (s : State) : State := loadA (s.cpu.a &&& m) s

/-- ORA (R211): `A <- A | M; SetNZ(A)`. -/
def oraA (m : Byte) (s : State) : State := loadA (s.cpu.a ||| m) s

/-- EOR (R212): `A <- A ^ M; SetNZ(A)`. -/
def eorA (m : Byte) (s : State) : State := loadA (s.cpu.a ^^^ m) s

/-- The byte a shift makes, and the state with the flags it leaves. -/
def shifted (r : Shifted) (s : State) : Byte × State := (r.result, s.setP (s.cpu.p.setShifted r))

/-- ASL (R213). -/
def shiftLeft (m : Byte) (s : State) : Byte × State := shifted (aslByte m) s

/-- LSR (R214). -/
def shiftRight (m : Byte) (s : State) : Byte × State := shifted (lsrByte m) s

/-- ROL (R215). -/
def rotateLeft (m : Byte) (s : State) : Byte × State := shifted (rolByte m s.cpu.p.c) s

/-- ROR (R216). -/
def rotateRight (m : Byte) (s : State) : Byte × State := shifted (rorByte m s.cpu.p.c) s

/-- An official read-modify-write instruction does nothing more with the byte it wrote. -/
def keep (_ : Byte) (s : State) : State := s

/-- BIT (R217): only flags. -/
def bitA (m : Byte) (s : State) : State := s.setP (s.cpu.p.bit s.cpu.a m)

/-- 0x21 AND indexIndirect (R210, R174). -/
def execAndIndexIndirect (b : Byte) (s : State) : Result := readClass andA (.memory (.indexIndirect b)) (.fixed 6) s

/-- 0x25 AND zeropage (R210, R167). -/
def execAndZeropage (b : Byte) (s : State) : Result := readClass andA (.memory (.zeropage b)) (.fixed 3) s

/-- 0x29 AND immediate (R210, R166). -/
def execAndImmediate (b : Byte) (s : State) : Result := readClass andA (.immediate b) (.fixed 2) s

/-- 0x2D AND absolute (R210, R170). -/
def execAndAbsolute (w : Addr) (s : State) : Result := readClass andA (.memory (.absolute w)) (.fixed 4) s

/-- 0x31 AND indirectIndex (R210, R175). -/
def execAndIndirectIndex (b : Byte) (s : State) : Result := readClass andA (.memory (.indirectIndex b)) (.plusP 5) s

/-- 0x35 AND zeropageX (R210, R168). -/
def execAndZeropageX (b : Byte) (s : State) : Result := readClass andA (.memory (.zeropageX b)) (.fixed 4) s

/-- 0x39 AND absoluteY (R210, R172). -/
def execAndAbsoluteY (w : Addr) (s : State) : Result := readClass andA (.memory (.absoluteY w)) (.plusP 4) s

/-- 0x3D AND absoluteX (R210, R171). -/
def execAndAbsoluteX (w : Addr) (s : State) : Result := readClass andA (.memory (.absoluteX w)) (.plusP 4) s

/-- 0x01 ORA indexIndirect (R211, R174). -/
def execOraIndexIndirect (b : Byte) (s : State) : Result := readClass oraA (.memory (.indexIndirect b)) (.fixed 6) s

/-- 0x05 ORA zeropage (R211, R167). -/
def execOraZeropage (b : Byte) (s : State) : Result := readClass oraA (.memory (.zeropage b)) (.fixed 3) s

/-- 0x09 ORA immediate (R211, R166). -/
def execOraImmediate (b : Byte) (s : State) : Result := readClass oraA (.immediate b) (.fixed 2) s

/-- 0x0D ORA absolute (R211, R170). -/
def execOraAbsolute (w : Addr) (s : State) : Result := readClass oraA (.memory (.absolute w)) (.fixed 4) s

/-- 0x11 ORA indirectIndex (R211, R175). -/
def execOraIndirectIndex (b : Byte) (s : State) : Result := readClass oraA (.memory (.indirectIndex b)) (.plusP 5) s

/-- 0x15 ORA zeropageX (R211, R168). -/
def execOraZeropageX (b : Byte) (s : State) : Result := readClass oraA (.memory (.zeropageX b)) (.fixed 4) s

/-- 0x19 ORA absoluteY (R211, R172). -/
def execOraAbsoluteY (w : Addr) (s : State) : Result := readClass oraA (.memory (.absoluteY w)) (.plusP 4) s

/-- 0x1D ORA absoluteX (R211, R171). -/
def execOraAbsoluteX (w : Addr) (s : State) : Result := readClass oraA (.memory (.absoluteX w)) (.plusP 4) s

/-- 0x41 EOR indexIndirect (R212, R174). -/
def execEorIndexIndirect (b : Byte) (s : State) : Result := readClass eorA (.memory (.indexIndirect b)) (.fixed 6) s

/-- 0x45 EOR zeropage (R212, R167). -/
def execEorZeropage (b : Byte) (s : State) : Result := readClass eorA (.memory (.zeropage b)) (.fixed 3) s

/-- 0x49 EOR immediate (R212, R166). -/
def execEorImmediate (b : Byte) (s : State) : Result := readClass eorA (.immediate b) (.fixed 2) s

/-- 0x4D EOR absolute (R212, R170). -/
def execEorAbsolute (w : Addr) (s : State) : Result := readClass eorA (.memory (.absolute w)) (.fixed 4) s

/-- 0x51 EOR indirectIndex (R212, R175). -/
def execEorIndirectIndex (b : Byte) (s : State) : Result := readClass eorA (.memory (.indirectIndex b)) (.plusP 5) s

/-- 0x55 EOR zeropageX (R212, R168). -/
def execEorZeropageX (b : Byte) (s : State) : Result := readClass eorA (.memory (.zeropageX b)) (.fixed 4) s

/-- 0x59 EOR absoluteY (R212, R172). -/
def execEorAbsoluteY (w : Addr) (s : State) : Result := readClass eorA (.memory (.absoluteY w)) (.plusP 4) s

/-- 0x5D EOR absoluteX (R212, R171). -/
def execEorAbsoluteX (w : Addr) (s : State) : Result := readClass eorA (.memory (.absoluteX w)) (.plusP 4) s

/-- 0x06 ASL zeropage (R213, R167). -/
def execAslZeropage (b : Byte) (s : State) : Result := rmwClass shiftLeft keep (.zeropage b) 5 s

/-- 0x0A ASL accumulator (R213, R165). -/
def execAslAccumulator (s : State) : Result := accClass shiftLeft 2 s

/-- 0x0E ASL absolute (R213, R170). -/
def execAslAbsolute (w : Addr) (s : State) : Result := rmwClass shiftLeft keep (.absolute w) 6 s

/-- 0x16 ASL zeropageX (R213, R168). -/
def execAslZeropageX (b : Byte) (s : State) : Result := rmwClass shiftLeft keep (.zeropageX b) 6 s

/-- 0x1E ASL absoluteX (R213, R171). -/
def execAslAbsoluteX (w : Addr) (s : State) : Result := rmwClass shiftLeft keep (.absoluteX w) 7 s

/-- 0x46 LSR zeropage (R214, R167). -/
def execLsrZeropage (b : Byte) (s : State) : Result := rmwClass shiftRight keep (.zeropage b) 5 s

/-- 0x4A LSR accumulator (R214, R165). -/
def execLsrAccumulator (s : State) : Result := accClass shiftRight 2 s

/-- 0x4E LSR absolute (R214, R170). -/
def execLsrAbsolute (w : Addr) (s : State) : Result := rmwClass shiftRight keep (.absolute w) 6 s

/-- 0x56 LSR zeropageX (R214, R168). -/
def execLsrZeropageX (b : Byte) (s : State) : Result := rmwClass shiftRight keep (.zeropageX b) 6 s

/-- 0x5E LSR absoluteX (R214, R171). -/
def execLsrAbsoluteX (w : Addr) (s : State) : Result := rmwClass shiftRight keep (.absoluteX w) 7 s

/-- 0x26 ROL zeropage (R215, R167). -/
def execRolZeropage (b : Byte) (s : State) : Result := rmwClass rotateLeft keep (.zeropage b) 5 s

/-- 0x2A ROL accumulator (R215, R165). -/
def execRolAccumulator (s : State) : Result := accClass rotateLeft 2 s

/-- 0x2E ROL absolute (R215, R170). -/
def execRolAbsolute (w : Addr) (s : State) : Result := rmwClass rotateLeft keep (.absolute w) 6 s

/-- 0x36 ROL zeropageX (R215, R168). -/
def execRolZeropageX (b : Byte) (s : State) : Result := rmwClass rotateLeft keep (.zeropageX b) 6 s

/-- 0x3E ROL absoluteX (R215, R171). -/
def execRolAbsoluteX (w : Addr) (s : State) : Result := rmwClass rotateLeft keep (.absoluteX w) 7 s

/-- 0x66 ROR zeropage (R216, R167). -/
def execRorZeropage (b : Byte) (s : State) : Result := rmwClass rotateRight keep (.zeropage b) 5 s

/-- 0x6A ROR accumulator (R216, R165). -/
def execRorAccumulator (s : State) : Result := accClass rotateRight 2 s

/-- 0x6E ROR absolute (R216, R170). -/
def execRorAbsolute (w : Addr) (s : State) : Result := rmwClass rotateRight keep (.absolute w) 6 s

/-- 0x76 ROR zeropageX (R216, R168). -/
def execRorZeropageX (b : Byte) (s : State) : Result := rmwClass rotateRight keep (.zeropageX b) 6 s

/-- 0x7E ROR absoluteX (R216, R171). -/
def execRorAbsoluteX (w : Addr) (s : State) : Result := rmwClass rotateRight keep (.absoluteX w) 7 s

/-- 0x24 BIT zeropage (R217, R167). -/
def execBitZeropage (b : Byte) (s : State) : Result := readClass bitA (.memory (.zeropage b)) (.fixed 3) s

/-- 0x2C BIT absolute (R217, R170). -/
def execBitAbsolute (w : Addr) (s : State) : Result := readClass bitA (.memory (.absolute w)) (.fixed 4) s

end Sys2Proof.Machine
end

