-- ==== Sys2Proof/Machine/Arith.lean ====
section
/-! DEFINITION. Compares, increments, decrements, add and subtract (43_compare_incdec_arith.md). -/

namespace Sys2Proof.Machine

/-- CMP (R230). -/
def compareA (m : Byte) (s : State) : State := s.setP (s.cpu.p.compare s.cpu.a m)

/-- CPX (R231). -/
def compareX (m : Byte) (s : State) : State := s.setP (s.cpu.p.compare s.cpu.x m)

/-- CPY (R232). -/
def compareY (m : Byte) (s : State) : State := s.setP (s.cpu.p.compare s.cpu.y m)

/-- INC (R233): `N`, `Z` from the result. -/
def increment (m : Byte) (s : State) : Byte × State := (m + 1, s.setNZ (m + 1))

/-- DEC (R234): `N`, `Z` from the result. -/
def decrement (m : Byte) (s : State) : Byte × State := (m - 1, s.setNZ (m - 1))

/-- INX, DEX (R235, R237): `X` plus `k`, modulo 256. -/
def stepX (k : Byte) (s : State) : State := loadX (s.cpu.x + k) s

/-- INY, DEY (R236, R238): `Y` plus `k`, modulo 256. -/
def stepY (k : Byte) (s : State) : State := loadY (s.cpu.y + k) s

/-- The accumulator and the flags after a sum. -/
def storeSum (r : Sum) (s : State) : State := (s.setA r.result).setP (s.cpu.p.setSum r)

/-- ADC (R239); binary whatever `D` holds (10_state.md R31). -/
def addA (m : Byte) (s : State) : State := storeSum (adcSum s.cpu.a m s.cpu.p.c) s

/-- SBC (R240). -/
def subtractA (m : Byte) (s : State) : State := storeSum (sbcSum s.cpu.a m s.cpu.p.c) s

/-- 0xC1 CMP indexIndirect (R230, R174). -/
def execCmpIndexIndirect (b : Byte) (s : State) : Result := readClass compareA (.memory (.indexIndirect b)) (.fixed 6) s

/-- 0xC5 CMP zeropage (R230, R167). -/
def execCmpZeropage (b : Byte) (s : State) : Result := readClass compareA (.memory (.zeropage b)) (.fixed 3) s

/-- 0xC9 CMP immediate (R230, R166). -/
def execCmpImmediate (b : Byte) (s : State) : Result := readClass compareA (.immediate b) (.fixed 2) s

/-- 0xCD CMP absolute (R230, R170). -/
def execCmpAbsolute (w : Addr) (s : State) : Result := readClass compareA (.memory (.absolute w)) (.fixed 4) s

/-- 0xD1 CMP indirectIndex (R230, R175). -/
def execCmpIndirectIndex (b : Byte) (s : State) : Result := readClass compareA (.memory (.indirectIndex b)) (.plusP 5) s

/-- 0xD5 CMP zeropageX (R230, R168). -/
def execCmpZeropageX (b : Byte) (s : State) : Result := readClass compareA (.memory (.zeropageX b)) (.fixed 4) s

/-- 0xD9 CMP absoluteY (R230, R172). -/
def execCmpAbsoluteY (w : Addr) (s : State) : Result := readClass compareA (.memory (.absoluteY w)) (.plusP 4) s

/-- 0xDD CMP absoluteX (R230, R171). -/
def execCmpAbsoluteX (w : Addr) (s : State) : Result := readClass compareA (.memory (.absoluteX w)) (.plusP 4) s

/-- 0xE0 CPX immediate (R231, R166). -/
def execCpxImmediate (b : Byte) (s : State) : Result := readClass compareX (.immediate b) (.fixed 2) s

/-- 0xE4 CPX zeropage (R231, R167). -/
def execCpxZeropage (b : Byte) (s : State) : Result := readClass compareX (.memory (.zeropage b)) (.fixed 3) s

/-- 0xEC CPX absolute (R231, R170). -/
def execCpxAbsolute (w : Addr) (s : State) : Result := readClass compareX (.memory (.absolute w)) (.fixed 4) s

/-- 0xC0 CPY immediate (R232, R166). -/
def execCpyImmediate (b : Byte) (s : State) : Result := readClass compareY (.immediate b) (.fixed 2) s

/-- 0xC4 CPY zeropage (R232, R167). -/
def execCpyZeropage (b : Byte) (s : State) : Result := readClass compareY (.memory (.zeropage b)) (.fixed 3) s

/-- 0xCC CPY absolute (R232, R170). -/
def execCpyAbsolute (w : Addr) (s : State) : Result := readClass compareY (.memory (.absolute w)) (.fixed 4) s

/-- 0xE6 INC zeropage (R233, R167). -/
def execIncZeropage (b : Byte) (s : State) : Result := rmwClass increment keep (.zeropage b) 5 s

/-- 0xEE INC absolute (R233, R170). -/
def execIncAbsolute (w : Addr) (s : State) : Result := rmwClass increment keep (.absolute w) 6 s

/-- 0xF6 INC zeropageX (R233, R168). -/
def execIncZeropageX (b : Byte) (s : State) : Result := rmwClass increment keep (.zeropageX b) 6 s

/-- 0xFE INC absoluteX (R233, R171). -/
def execIncAbsoluteX (w : Addr) (s : State) : Result := rmwClass increment keep (.absoluteX w) 7 s

/-- 0xC6 DEC zeropage (R234, R167). -/
def execDecZeropage (b : Byte) (s : State) : Result := rmwClass decrement keep (.zeropage b) 5 s

/-- 0xCE DEC absolute (R234, R170). -/
def execDecAbsolute (w : Addr) (s : State) : Result := rmwClass decrement keep (.absolute w) 6 s

/-- 0xD6 DEC zeropageX (R234, R168). -/
def execDecZeropageX (b : Byte) (s : State) : Result := rmwClass decrement keep (.zeropageX b) 6 s

/-- 0xDE DEC absoluteX (R234, R171). -/
def execDecAbsoluteX (w : Addr) (s : State) : Result := rmwClass decrement keep (.absoluteX w) 7 s

/-- 0xE8 INX implied (R235). -/
def execInx (s : State) : Result := impliedClass (stepX 1) 2 s

/-- 0xC8 INY implied (R236). -/
def execIny (s : State) : Result := impliedClass (stepY 1) 2 s

/-- 0xCA DEX implied (R237). -/
def execDex (s : State) : Result := impliedClass (stepX (-1)) 2 s

/-- 0x88 DEY implied (R238). -/
def execDey (s : State) : Result := impliedClass (stepY (-1)) 2 s

/-- 0x61 ADC indexIndirect (R239, R174). -/
def execAdcIndexIndirect (b : Byte) (s : State) : Result := readClass addA (.memory (.indexIndirect b)) (.fixed 6) s

/-- 0x65 ADC zeropage (R239, R167). -/
def execAdcZeropage (b : Byte) (s : State) : Result := readClass addA (.memory (.zeropage b)) (.fixed 3) s

/-- 0x69 ADC immediate (R239, R166). -/
def execAdcImmediate (b : Byte) (s : State) : Result := readClass addA (.immediate b) (.fixed 2) s

/-- 0x6D ADC absolute (R239, R170). -/
def execAdcAbsolute (w : Addr) (s : State) : Result := readClass addA (.memory (.absolute w)) (.fixed 4) s

/-- 0x71 ADC indirectIndex (R239, R175). -/
def execAdcIndirectIndex (b : Byte) (s : State) : Result := readClass addA (.memory (.indirectIndex b)) (.plusP 5) s

/-- 0x75 ADC zeropageX (R239, R168). -/
def execAdcZeropageX (b : Byte) (s : State) : Result := readClass addA (.memory (.zeropageX b)) (.fixed 4) s

/-- 0x79 ADC absoluteY (R239, R172). -/
def execAdcAbsoluteY (w : Addr) (s : State) : Result := readClass addA (.memory (.absoluteY w)) (.plusP 4) s

/-- 0x7D ADC absoluteX (R239, R171). -/
def execAdcAbsoluteX (w : Addr) (s : State) : Result := readClass addA (.memory (.absoluteX w)) (.plusP 4) s

/-- 0xE1 SBC indexIndirect (R240, R174). -/
def execSbcIndexIndirect (b : Byte) (s : State) : Result := readClass subtractA (.memory (.indexIndirect b)) (.fixed 6) s

/-- 0xE5 SBC zeropage (R240, R167). -/
def execSbcZeropage (b : Byte) (s : State) : Result := readClass subtractA (.memory (.zeropage b)) (.fixed 3) s

/-- 0xE9 SBC immediate (R240, R166). -/
def execSbcImmediate (b : Byte) (s : State) : Result := readClass subtractA (.immediate b) (.fixed 2) s

/-- 0xEB SBC immediate (R315, R166). -/
def execSbcImmediateEB (b : Byte) (s : State) : Result := readClass subtractA (.immediate b) (.fixed 2) s

/-- 0xED SBC absolute (R240, R170). -/
def execSbcAbsolute (w : Addr) (s : State) : Result := readClass subtractA (.memory (.absolute w)) (.fixed 4) s

/-- 0xF1 SBC indirectIndex (R240, R175). -/
def execSbcIndirectIndex (b : Byte) (s : State) : Result := readClass subtractA (.memory (.indirectIndex b)) (.plusP 5) s

/-- 0xF5 SBC zeropageX (R240, R168). -/
def execSbcZeropageX (b : Byte) (s : State) : Result := readClass subtractA (.memory (.zeropageX b)) (.fixed 4) s

/-- 0xF9 SBC absoluteY (R240, R172). -/
def execSbcAbsoluteY (w : Addr) (s : State) : Result := readClass subtractA (.memory (.absoluteY w)) (.plusP 4) s

/-- 0xFD SBC absoluteX (R240, R171). -/
def execSbcAbsoluteX (w : Addr) (s : State) : Result := readClass subtractA (.memory (.absoluteX w)) (.plusP 4) s

end Sys2Proof.Machine
end

