-- ==== Sys2Proof/Machine/Control.lean ====
section
/-! DEFINITION. Stack, control transfer, branches, flag instructions, BRK and NOP (44_stack_control_flags.md). -/

namespace Sys2Proof.Machine

/-- PHA (R260). -/
def pushA (s : State) : State := push s.cpu.a s

/-- PLA (R261): it loads the pulled byte. -/
def pullA (s : State) : State :=
  let r := pull s
  loadA r.1 r.2

/-- PHP (R262): bit 4 of the pushed byte is 1. -/
def pushP (s : State) : State := push (s.cpu.p.pack true) s

/-- PLP (R263). -/
def pullP (s : State) : State :=
  let r := pull s
  r.2.setP (Flags.unpack r.1)

/-- JMP indirect (R265). -/
def jumpIndirect (ptr : Addr) (s : State) : State :=
  let r := read16Bug ptr s
  r.2.setPc r.1

/-- JSR (R266): it pushes the address of its own last byte, high byte first. -/
def callSub (target : Addr) (s : State) : State :=
  let ret := s.cpu.pc - 1
  (push (lo8 ret) (push (hi8 ret) s)).setPc target

/-- RTS (R267): low byte first, then plus one. -/
def returnSub (s : State) : State :=
  let l := pull s
  let h := pull l.2
  h.2.setPc (word h.1 l.1 + 1)

/-- BRK (R285, 60_exceptions.md R448): masked when the parameter says so and `I` is set; otherwise the entry, with
the padding byte skipped. -/
def softwareInterrupt (s : State) : State :=
  if s.config.brkRespectsI && s.cpu.p.i then s else enter irqVector true (s.setPc (s.cpu.pc + 1))

/-- 0x48 PHA implied (R260). -/
def execPha (s : State) : Result := impliedClass pushA 3 s

/-- 0x68 PLA implied (R261). -/
def execPla (s : State) : Result := impliedClass pullA 4 s

/-- 0x08 PHP implied (R262). -/
def execPhp (s : State) : Result := impliedClass pushP 3 s

/-- 0x28 PLP implied (R263). -/
def execPlp (s : State) : Result := impliedClass pullP 4 s

/-- 0x4C JMP absolute (R264, R170). -/
def execJmpAbsolute (w : Addr) (s : State) : Result := impliedClass (fun s => s.setPc w) 3 s

/-- 0x6C JMP indirect (R265, R173). -/
def execJmpIndirect (w : Addr) (s : State) : Result := impliedClass (jumpIndirect w) 5 s

/-- 0x20 JSR absolute (R266, R170). -/
def execJsr (w : Addr) (s : State) : Result := impliedClass (callSub w) 6 s

/-- 0x60 RTS implied (R267). -/
def execRts (s : State) : Result := impliedClass returnSub 6 s

/-- 0x40 RTI implied (R268). -/
def execRti (s : State) : Result := impliedClass leave 6 s

/-- 0x10 BPL relative (R270). -/
def execBpl (d : Byte) (s : State) : Result := branchClass (fun p => !p.n) d s

/-- 0x30 BMI relative (R271). -/
def execBmi (d : Byte) (s : State) : Result := branchClass (fun p => p.n) d s

/-- 0x50 BVC relative (R272). -/
def execBvc (d : Byte) (s : State) : Result := branchClass (fun p => !p.v) d s

/-- 0x70 BVS relative (R273). -/
def execBvs (d : Byte) (s : State) : Result := branchClass (fun p => p.v) d s

/-- 0x90 BCC relative (R274). -/
def execBcc (d : Byte) (s : State) : Result := branchClass (fun p => !p.c) d s

/-- 0xB0 BCS relative (R275). -/
def execBcs (d : Byte) (s : State) : Result := branchClass (fun p => p.c) d s

/-- 0xD0 BNE relative (R276). -/
def execBne (d : Byte) (s : State) : Result := branchClass (fun p => !p.z) d s

/-- 0xF0 BEQ relative (R277). -/
def execBeq (d : Byte) (s : State) : Result := branchClass (fun p => p.z) d s

/-- 0x18 CLC implied (R278). -/
def execClc (s : State) : Result := impliedClass (fun s => s.setP { s.cpu.p with c := false }) 2 s

/-- 0x38 SEC implied (R279). -/
def execSec (s : State) : Result := impliedClass (fun s => s.setP { s.cpu.p with c := true }) 2 s

/-- 0x58 CLI implied (R280). -/
def execCli (s : State) : Result := impliedClass (fun s => s.setP { s.cpu.p with i := false }) 2 s

/-- 0x78 SEI implied (R281). -/
def execSei (s : State) : Result := impliedClass (fun s => s.setP { s.cpu.p with i := true }) 2 s

/-- 0xB8 CLV implied (R282). -/
def execClv (s : State) : Result := impliedClass (fun s => s.setP { s.cpu.p with v := false }) 2 s

/-- 0xD8 CLD implied (R283). -/
def execCld (s : State) : Result := impliedClass (fun s => s.setP { s.cpu.p with d := false }) 2 s

/-- 0xF8 SED implied (R284). -/
def execSed (s : State) : Result := impliedClass (fun s => s.setP { s.cpu.p with d := true }) 2 s

/-- 0x00 BRK implied (R285). -/
def execBrk (s : State) : Result := impliedClass softwareInterrupt 7 s

end Sys2Proof.Machine
end

