-- ==== Sys2Proof/Machine/Unofficial.lean ====
section
/-! DEFINITION. The mapped unofficial opcodes, every NOP, and the unmapped slots (45_unofficial.md,
44_stack_control_flags.md R286, 60_exceptions.md R460). -/

namespace Sys2Proof.Machine

/-- The byte SAX stores (R305). -/
def regAX (s : State) : Byte := s.cpu.a &&& s.cpu.x

/-- LAX (R306): `A` and `X` from one read. -/
def loadAX (m : Byte) (s : State) : State := ((s.setA m).setX m).setNZ m

/-- NOP absoluteX (R314): the address counts only for the page-crossing cycle, no access is made there. -/
def nopIndexed (w : Addr) (c : Cost) (s : State) : Result := .next (s.charge (c.total (indexed w s.cpu.x).crossed))

/-- 0x03 SLO indexIndirect (R301, R174). -/
def execSloIndexIndirect (b : Byte) (s : State) : Result := rmwClass shiftLeft oraA (.indexIndirect b) 8 s

/-- 0x07 SLO zeropage (R301, R167). -/
def execSloZeropage (b : Byte) (s : State) : Result := rmwClass shiftLeft oraA (.zeropage b) 5 s

/-- 0x0F SLO absolute (R301, R170). -/
def execSloAbsolute (w : Addr) (s : State) : Result := rmwClass shiftLeft oraA (.absolute w) 6 s

/-- 0x13 SLO indirectIndex (R301, R175). -/
def execSloIndirectIndex (b : Byte) (s : State) : Result := rmwClass shiftLeft oraA (.indirectIndex b) 8 s

/-- 0x17 SLO zeropageX (R301, R168). -/
def execSloZeropageX (b : Byte) (s : State) : Result := rmwClass shiftLeft oraA (.zeropageX b) 6 s

/-- 0x1B SLO absoluteY (R301, R172). -/
def execSloAbsoluteY (w : Addr) (s : State) : Result := rmwClass shiftLeft oraA (.absoluteY w) 7 s

/-- 0x1F SLO absoluteX (R301, R171). -/
def execSloAbsoluteX (w : Addr) (s : State) : Result := rmwClass shiftLeft oraA (.absoluteX w) 7 s

/-- 0x23 RLA indexIndirect (R302, R174). -/
def execRlaIndexIndirect (b : Byte) (s : State) : Result := rmwClass rotateLeft andA (.indexIndirect b) 8 s

/-- 0x27 RLA zeropage (R302, R167). -/
def execRlaZeropage (b : Byte) (s : State) : Result := rmwClass rotateLeft andA (.zeropage b) 5 s

/-- 0x2F RLA absolute (R302, R170). -/
def execRlaAbsolute (w : Addr) (s : State) : Result := rmwClass rotateLeft andA (.absolute w) 6 s

/-- 0x33 RLA indirectIndex (R302, R175). -/
def execRlaIndirectIndex (b : Byte) (s : State) : Result := rmwClass rotateLeft andA (.indirectIndex b) 8 s

/-- 0x37 RLA zeropageX (R302, R168). -/
def execRlaZeropageX (b : Byte) (s : State) : Result := rmwClass rotateLeft andA (.zeropageX b) 6 s

/-- 0x3B RLA absoluteY (R302, R172). -/
def execRlaAbsoluteY (w : Addr) (s : State) : Result := rmwClass rotateLeft andA (.absoluteY w) 7 s

/-- 0x3F RLA absoluteX (R302, R171). -/
def execRlaAbsoluteX (w : Addr) (s : State) : Result := rmwClass rotateLeft andA (.absoluteX w) 7 s

/-- 0x43 SRE indexIndirect (R303, R174). -/
def execSreIndexIndirect (b : Byte) (s : State) : Result := rmwClass shiftRight eorA (.indexIndirect b) 8 s

/-- 0x47 SRE zeropage (R303, R167). -/
def execSreZeropage (b : Byte) (s : State) : Result := rmwClass shiftRight eorA (.zeropage b) 5 s

/-- 0x4F SRE absolute (R303, R170). -/
def execSreAbsolute (w : Addr) (s : State) : Result := rmwClass shiftRight eorA (.absolute w) 6 s

/-- 0x53 SRE indirectIndex (R303, R175). -/
def execSreIndirectIndex (b : Byte) (s : State) : Result := rmwClass shiftRight eorA (.indirectIndex b) 8 s

/-- 0x57 SRE zeropageX (R303, R168). -/
def execSreZeropageX (b : Byte) (s : State) : Result := rmwClass shiftRight eorA (.zeropageX b) 6 s

/-- 0x5B SRE absoluteY (R303, R172). -/
def execSreAbsoluteY (w : Addr) (s : State) : Result := rmwClass shiftRight eorA (.absoluteY w) 7 s

/-- 0x5F SRE absoluteX (R303, R171). -/
def execSreAbsoluteX (w : Addr) (s : State) : Result := rmwClass shiftRight eorA (.absoluteX w) 7 s

/-- 0x63 RRA indexIndirect (R304, R174). -/
def execRraIndexIndirect (b : Byte) (s : State) : Result := rmwClass rotateRight addA (.indexIndirect b) 8 s

/-- 0x67 RRA zeropage (R304, R167). -/
def execRraZeropage (b : Byte) (s : State) : Result := rmwClass rotateRight addA (.zeropage b) 5 s

/-- 0x6F RRA absolute (R304, R170). -/
def execRraAbsolute (w : Addr) (s : State) : Result := rmwClass rotateRight addA (.absolute w) 6 s

/-- 0x73 RRA indirectIndex (R304, R175). -/
def execRraIndirectIndex (b : Byte) (s : State) : Result := rmwClass rotateRight addA (.indirectIndex b) 8 s

/-- 0x77 RRA zeropageX (R304, R168). -/
def execRraZeropageX (b : Byte) (s : State) : Result := rmwClass rotateRight addA (.zeropageX b) 6 s

/-- 0x7B RRA absoluteY (R304, R172). -/
def execRraAbsoluteY (w : Addr) (s : State) : Result := rmwClass rotateRight addA (.absoluteY w) 7 s

/-- 0x7F RRA absoluteX (R304, R171). -/
def execRraAbsoluteX (w : Addr) (s : State) : Result := rmwClass rotateRight addA (.absoluteX w) 7 s

/-- 0x83 SAX indexIndirect (R305, R174). -/
def execSaxIndexIndirect (b : Byte) (s : State) : Result := writeClass regAX (.indexIndirect b) 6 s

/-- 0x87 SAX zeropage (R305, R167). -/
def execSaxZeropage (b : Byte) (s : State) : Result := writeClass regAX (.zeropage b) 3 s

/-- 0x8F SAX absolute (R305, R170). -/
def execSaxAbsolute (w : Addr) (s : State) : Result := writeClass regAX (.absolute w) 4 s

/-- 0x97 SAX zeropageY (R305, R169). -/
def execSaxZeropageY (b : Byte) (s : State) : Result := writeClass regAX (.zeropageY b) 4 s

/-- 0xA3 LAX indexIndirect (R306, R174). -/
def execLaxIndexIndirect (b : Byte) (s : State) : Result := readClass loadAX (.memory (.indexIndirect b)) (.fixed 6) s

/-- 0xA7 LAX zeropage (R306, R167). -/
def execLaxZeropage (b : Byte) (s : State) : Result := readClass loadAX (.memory (.zeropage b)) (.fixed 3) s

/-- 0xAF LAX absolute (R306, R170). -/
def execLaxAbsolute (w : Addr) (s : State) : Result := readClass loadAX (.memory (.absolute w)) (.fixed 4) s

/-- 0xB3 LAX indirectIndex (R306, R175). -/
def execLaxIndirectIndex (b : Byte) (s : State) : Result := readClass loadAX (.memory (.indirectIndex b)) (.plusP 5) s

/-- 0xB7 LAX zeropageY (R306, R169). -/
def execLaxZeropageY (b : Byte) (s : State) : Result := readClass loadAX (.memory (.zeropageY b)) (.fixed 4) s

/-- 0xBF LAX absoluteY (R306, R172). -/
def execLaxAbsoluteY (w : Addr) (s : State) : Result := readClass loadAX (.memory (.absoluteY w)) (.plusP 4) s

/-- 0xC3 DCP indexIndirect (R307, R174). -/
def execDcpIndexIndirect (b : Byte) (s : State) : Result := rmwClass decrement compareA (.indexIndirect b) 8 s

/-- 0xC7 DCP zeropage (R307, R167). -/
def execDcpZeropage (b : Byte) (s : State) : Result := rmwClass decrement compareA (.zeropage b) 5 s

/-- 0xCF DCP absolute (R307, R170). -/
def execDcpAbsolute (w : Addr) (s : State) : Result := rmwClass decrement compareA (.absolute w) 6 s

/-- 0xD3 DCP indirectIndex (R307, R175). -/
def execDcpIndirectIndex (b : Byte) (s : State) : Result := rmwClass decrement compareA (.indirectIndex b) 8 s

/-- 0xD7 DCP zeropageX (R307, R168). -/
def execDcpZeropageX (b : Byte) (s : State) : Result := rmwClass decrement compareA (.zeropageX b) 6 s

/-- 0xDB DCP absoluteY (R307, R172). -/
def execDcpAbsoluteY (w : Addr) (s : State) : Result := rmwClass decrement compareA (.absoluteY w) 7 s

/-- 0xDF DCP absoluteX (R307, R171). -/
def execDcpAbsoluteX (w : Addr) (s : State) : Result := rmwClass decrement compareA (.absoluteX w) 7 s

/-- 0xE3 ISC indexIndirect (R308, R174). -/
def execIscIndexIndirect (b : Byte) (s : State) : Result := rmwClass increment subtractA (.indexIndirect b) 8 s

/-- 0xE7 ISC zeropage (R308, R167). -/
def execIscZeropage (b : Byte) (s : State) : Result := rmwClass increment subtractA (.zeropage b) 5 s

/-- 0xEF ISC absolute (R308, R170). -/
def execIscAbsolute (w : Addr) (s : State) : Result := rmwClass increment subtractA (.absolute w) 6 s

/-- 0xF3 ISC indirectIndex (R308, R175). -/
def execIscIndirectIndex (b : Byte) (s : State) : Result := rmwClass increment subtractA (.indirectIndex b) 8 s

/-- 0xF7 ISC zeropageX (R308, R168). -/
def execIscZeropageX (b : Byte) (s : State) : Result := rmwClass increment subtractA (.zeropageX b) 6 s

/-- 0xFB ISC absoluteY (R308, R172). -/
def execIscAbsoluteY (w : Addr) (s : State) : Result := rmwClass increment subtractA (.absoluteY w) 7 s

/-- 0xFF ISC absoluteX (R308, R171). -/
def execIscAbsoluteX (w : Addr) (s : State) : Result := rmwClass increment subtractA (.absoluteX w) 7 s

/-- 0x04 NOP zeropage (R311, R167). -/
def execNop04 (_b : Byte) (s : State) : Result := impliedClass id 3 s

/-- 0x0C NOP absolute (R313, R170). -/
def execNop0C (_w : Addr) (s : State) : Result := impliedClass id 4 s

/-- 0x14 NOP zeropageX (R312, R168). -/
def execNop14 (_b : Byte) (s : State) : Result := impliedClass id 4 s

/-- 0x1A NOP implied (R309). -/
def execNop1A (s : State) : Result := impliedClass id 2 s

/-- 0x1C NOP absoluteX (R314, R171). -/
def execNop1C (w : Addr) (s : State) : Result := nopIndexed w (.plusP 4) s

/-- 0x34 NOP zeropageX (R312, R168). -/
def execNop34 (_b : Byte) (s : State) : Result := impliedClass id 4 s

/-- 0x3A NOP implied (R309). -/
def execNop3A (s : State) : Result := impliedClass id 2 s

/-- 0x3C NOP absoluteX (R314, R171). -/
def execNop3C (w : Addr) (s : State) : Result := nopIndexed w (.plusP 4) s

/-- 0x44 NOP zeropage (R311, R167). -/
def execNop44 (_b : Byte) (s : State) : Result := impliedClass id 3 s

/-- 0x54 NOP zeropageX (R312, R168). -/
def execNop54 (_b : Byte) (s : State) : Result := impliedClass id 4 s

/-- 0x5A NOP implied (R309). -/
def execNop5A (s : State) : Result := impliedClass id 2 s

/-- 0x5C NOP absoluteX (R314, R171). -/
def execNop5C (w : Addr) (s : State) : Result := nopIndexed w (.plusP 4) s

/-- 0x64 NOP zeropage (R311, R167). -/
def execNop64 (_b : Byte) (s : State) : Result := impliedClass id 3 s

/-- 0x74 NOP zeropageX (R312, R168). -/
def execNop74 (_b : Byte) (s : State) : Result := impliedClass id 4 s

/-- 0x7A NOP implied (R309). -/
def execNop7A (s : State) : Result := impliedClass id 2 s

/-- 0x7C NOP absoluteX (R314, R171). -/
def execNop7C (w : Addr) (s : State) : Result := nopIndexed w (.plusP 4) s

/-- 0x80 NOP immediate (R310, R166). -/
def execNop80 (_b : Byte) (s : State) : Result := impliedClass id 2 s

/-- 0x82 NOP immediate (R310, R166). -/
def execNop82 (_b : Byte) (s : State) : Result := impliedClass id 2 s

/-- 0x89 NOP immediate (R310, R166). -/
def execNop89 (_b : Byte) (s : State) : Result := impliedClass id 2 s

/-- 0xC2 NOP immediate (R310, R166). -/
def execNopC2 (_b : Byte) (s : State) : Result := impliedClass id 2 s

/-- 0xD4 NOP zeropageX (R312, R168). -/
def execNopD4 (_b : Byte) (s : State) : Result := impliedClass id 4 s

/-- 0xDA NOP implied (R309). -/
def execNopDA (s : State) : Result := impliedClass id 2 s

/-- 0xDC NOP absoluteX (R314, R171). -/
def execNopDC (w : Addr) (s : State) : Result := nopIndexed w (.plusP 4) s

/-- 0xE2 NOP immediate (R310, R166). -/
def execNopE2 (_b : Byte) (s : State) : Result := impliedClass id 2 s

/-- 0xEA NOP implied (R286). -/
def execNop (s : State) : Result := impliedClass id 2 s

/-- 0xF4 NOP zeropageX (R312, R168). -/
def execNopF4 (_b : Byte) (s : State) : Result := impliedClass id 4 s

/-- 0xFA NOP implied (R309). -/
def execNopFA (s : State) : Result := impliedClass id 2 s

/-- 0xFC NOP absoluteX (R314, R171). -/
def execNopFC (w : Addr) (s : State) : Result := nopIndexed w (.plusP 4) s

/-- The 25 unmapped bytes (30_encoding.md R138): the decode error at the address the opcode was fetched from. -/
def execUnmapped (op : Byte) (s : State) : Result := raiseDecodeError (s.cpu.pc - 1) op s

end Sys2Proof.Machine
end

