-- ==== Sys2Proof/Machine/Dispatch.lean ====
section
/-! DEFINITION. The dispatch: one arm per constructor of Instr (30_encoding.md R136). -/

namespace Sys2Proof.Machine

def exec (i : Instr) (s : State) : Host.Outcome State Fault Refusal :=
  match i with
  | .brk => Sys2Proof.Machine.execBrk s
  | .oraIndexIndirect b => Sys2Proof.Machine.execOraIndexIndirect b s
  | .sloIndexIndirect b => Sys2Proof.Machine.execSloIndexIndirect b s
  | .nop04 b => Sys2Proof.Machine.execNop04 b s
  | .oraZeropage b => Sys2Proof.Machine.execOraZeropage b s
  | .aslZeropage b => Sys2Proof.Machine.execAslZeropage b s
  | .sloZeropage b => Sys2Proof.Machine.execSloZeropage b s
  | .php => Sys2Proof.Machine.execPhp s
  | .oraImmediate b => Sys2Proof.Machine.execOraImmediate b s
  | .aslAccumulator => Sys2Proof.Machine.execAslAccumulator s
  | .nop0C w => Sys2Proof.Machine.execNop0C w s
  | .oraAbsolute w => Sys2Proof.Machine.execOraAbsolute w s
  | .aslAbsolute w => Sys2Proof.Machine.execAslAbsolute w s
  | .sloAbsolute w => Sys2Proof.Machine.execSloAbsolute w s
  | .bpl d => Sys2Proof.Machine.execBpl d s
  | .oraIndirectIndex b => Sys2Proof.Machine.execOraIndirectIndex b s
  | .sloIndirectIndex b => Sys2Proof.Machine.execSloIndirectIndex b s
  | .nop14 b => Sys2Proof.Machine.execNop14 b s
  | .oraZeropageX b => Sys2Proof.Machine.execOraZeropageX b s
  | .aslZeropageX b => Sys2Proof.Machine.execAslZeropageX b s
  | .sloZeropageX b => Sys2Proof.Machine.execSloZeropageX b s
  | .clc => Sys2Proof.Machine.execClc s
  | .oraAbsoluteY w => Sys2Proof.Machine.execOraAbsoluteY w s
  | .nop1A => Sys2Proof.Machine.execNop1A s
  | .sloAbsoluteY w => Sys2Proof.Machine.execSloAbsoluteY w s
  | .nop1C w => Sys2Proof.Machine.execNop1C w s
  | .oraAbsoluteX w => Sys2Proof.Machine.execOraAbsoluteX w s
  | .aslAbsoluteX w => Sys2Proof.Machine.execAslAbsoluteX w s
  | .sloAbsoluteX w => Sys2Proof.Machine.execSloAbsoluteX w s
  | .jsr w => Sys2Proof.Machine.execJsr w s
  | .andIndexIndirect b => Sys2Proof.Machine.execAndIndexIndirect b s
  | .rlaIndexIndirect b => Sys2Proof.Machine.execRlaIndexIndirect b s
  | .bitZeropage b => Sys2Proof.Machine.execBitZeropage b s
  | .andZeropage b => Sys2Proof.Machine.execAndZeropage b s
  | .rolZeropage b => Sys2Proof.Machine.execRolZeropage b s
  | .rlaZeropage b => Sys2Proof.Machine.execRlaZeropage b s
  | .plp => Sys2Proof.Machine.execPlp s
  | .andImmediate b => Sys2Proof.Machine.execAndImmediate b s
  | .rolAccumulator => Sys2Proof.Machine.execRolAccumulator s
  | .bitAbsolute w => Sys2Proof.Machine.execBitAbsolute w s
  | .andAbsolute w => Sys2Proof.Machine.execAndAbsolute w s
  | .rolAbsolute w => Sys2Proof.Machine.execRolAbsolute w s
  | .rlaAbsolute w => Sys2Proof.Machine.execRlaAbsolute w s
  | .bmi d => Sys2Proof.Machine.execBmi d s
  | .andIndirectIndex b => Sys2Proof.Machine.execAndIndirectIndex b s
  | .rlaIndirectIndex b => Sys2Proof.Machine.execRlaIndirectIndex b s
  | .nop34 b => Sys2Proof.Machine.execNop34 b s
  | .andZeropageX b => Sys2Proof.Machine.execAndZeropageX b s
  | .rolZeropageX b => Sys2Proof.Machine.execRolZeropageX b s
  | .rlaZeropageX b => Sys2Proof.Machine.execRlaZeropageX b s
  | .sec => Sys2Proof.Machine.execSec s
  | .andAbsoluteY w => Sys2Proof.Machine.execAndAbsoluteY w s
  | .nop3A => Sys2Proof.Machine.execNop3A s
  | .rlaAbsoluteY w => Sys2Proof.Machine.execRlaAbsoluteY w s
  | .nop3C w => Sys2Proof.Machine.execNop3C w s
  | .andAbsoluteX w => Sys2Proof.Machine.execAndAbsoluteX w s
  | .rolAbsoluteX w => Sys2Proof.Machine.execRolAbsoluteX w s
  | .rlaAbsoluteX w => Sys2Proof.Machine.execRlaAbsoluteX w s
  | .rti => Sys2Proof.Machine.execRti s
  | .eorIndexIndirect b => Sys2Proof.Machine.execEorIndexIndirect b s
  | .sreIndexIndirect b => Sys2Proof.Machine.execSreIndexIndirect b s
  | .nop44 b => Sys2Proof.Machine.execNop44 b s
  | .eorZeropage b => Sys2Proof.Machine.execEorZeropage b s
  | .lsrZeropage b => Sys2Proof.Machine.execLsrZeropage b s
  | .sreZeropage b => Sys2Proof.Machine.execSreZeropage b s
  | .pha => Sys2Proof.Machine.execPha s
  | .eorImmediate b => Sys2Proof.Machine.execEorImmediate b s
  | .lsrAccumulator => Sys2Proof.Machine.execLsrAccumulator s
  | .jmpAbsolute w => Sys2Proof.Machine.execJmpAbsolute w s
  | .eorAbsolute w => Sys2Proof.Machine.execEorAbsolute w s
  | .lsrAbsolute w => Sys2Proof.Machine.execLsrAbsolute w s
  | .sreAbsolute w => Sys2Proof.Machine.execSreAbsolute w s
  | .bvc d => Sys2Proof.Machine.execBvc d s
  | .eorIndirectIndex b => Sys2Proof.Machine.execEorIndirectIndex b s
  | .sreIndirectIndex b => Sys2Proof.Machine.execSreIndirectIndex b s
  | .nop54 b => Sys2Proof.Machine.execNop54 b s
  | .eorZeropageX b => Sys2Proof.Machine.execEorZeropageX b s
  | .lsrZeropageX b => Sys2Proof.Machine.execLsrZeropageX b s
  | .sreZeropageX b => Sys2Proof.Machine.execSreZeropageX b s
  | .cli => Sys2Proof.Machine.execCli s
  | .eorAbsoluteY w => Sys2Proof.Machine.execEorAbsoluteY w s
  | .nop5A => Sys2Proof.Machine.execNop5A s
  | .sreAbsoluteY w => Sys2Proof.Machine.execSreAbsoluteY w s
  | .nop5C w => Sys2Proof.Machine.execNop5C w s
  | .eorAbsoluteX w => Sys2Proof.Machine.execEorAbsoluteX w s
  | .lsrAbsoluteX w => Sys2Proof.Machine.execLsrAbsoluteX w s
  | .sreAbsoluteX w => Sys2Proof.Machine.execSreAbsoluteX w s
  | .rts => Sys2Proof.Machine.execRts s
  | .adcIndexIndirect b => Sys2Proof.Machine.execAdcIndexIndirect b s
  | .rraIndexIndirect b => Sys2Proof.Machine.execRraIndexIndirect b s
  | .nop64 b => Sys2Proof.Machine.execNop64 b s
  | .adcZeropage b => Sys2Proof.Machine.execAdcZeropage b s
  | .rorZeropage b => Sys2Proof.Machine.execRorZeropage b s
  | .rraZeropage b => Sys2Proof.Machine.execRraZeropage b s
  | .pla => Sys2Proof.Machine.execPla s
  | .adcImmediate b => Sys2Proof.Machine.execAdcImmediate b s
  | .rorAccumulator => Sys2Proof.Machine.execRorAccumulator s
  | .jmpIndirect w => Sys2Proof.Machine.execJmpIndirect w s
  | .adcAbsolute w => Sys2Proof.Machine.execAdcAbsolute w s
  | .rorAbsolute w => Sys2Proof.Machine.execRorAbsolute w s
  | .rraAbsolute w => Sys2Proof.Machine.execRraAbsolute w s
  | .bvs d => Sys2Proof.Machine.execBvs d s
  | .adcIndirectIndex b => Sys2Proof.Machine.execAdcIndirectIndex b s
  | .rraIndirectIndex b => Sys2Proof.Machine.execRraIndirectIndex b s
  | .nop74 b => Sys2Proof.Machine.execNop74 b s
  | .adcZeropageX b => Sys2Proof.Machine.execAdcZeropageX b s
  | .rorZeropageX b => Sys2Proof.Machine.execRorZeropageX b s
  | .rraZeropageX b => Sys2Proof.Machine.execRraZeropageX b s
  | .sei => Sys2Proof.Machine.execSei s
  | .adcAbsoluteY w => Sys2Proof.Machine.execAdcAbsoluteY w s
  | .nop7A => Sys2Proof.Machine.execNop7A s
  | .rraAbsoluteY w => Sys2Proof.Machine.execRraAbsoluteY w s
  | .nop7C w => Sys2Proof.Machine.execNop7C w s
  | .adcAbsoluteX w => Sys2Proof.Machine.execAdcAbsoluteX w s
  | .rorAbsoluteX w => Sys2Proof.Machine.execRorAbsoluteX w s
  | .rraAbsoluteX w => Sys2Proof.Machine.execRraAbsoluteX w s
  | .nop80 b => Sys2Proof.Machine.execNop80 b s
  | .staIndexIndirect b => Sys2Proof.Machine.execStaIndexIndirect b s
  | .nop82 b => Sys2Proof.Machine.execNop82 b s
  | .saxIndexIndirect b => Sys2Proof.Machine.execSaxIndexIndirect b s
  | .styZeropage b => Sys2Proof.Machine.execStyZeropage b s
  | .staZeropage b => Sys2Proof.Machine.execStaZeropage b s
  | .stxZeropage b => Sys2Proof.Machine.execStxZeropage b s
  | .saxZeropage b => Sys2Proof.Machine.execSaxZeropage b s
  | .dey => Sys2Proof.Machine.execDey s
  | .nop89 b => Sys2Proof.Machine.execNop89 b s
  | .txa => Sys2Proof.Machine.execTxa s
  | .styAbsolute w => Sys2Proof.Machine.execStyAbsolute w s
  | .staAbsolute w => Sys2Proof.Machine.execStaAbsolute w s
  | .stxAbsolute w => Sys2Proof.Machine.execStxAbsolute w s
  | .saxAbsolute w => Sys2Proof.Machine.execSaxAbsolute w s
  | .bcc d => Sys2Proof.Machine.execBcc d s
  | .staIndirectIndex b => Sys2Proof.Machine.execStaIndirectIndex b s
  | .styZeropageX b => Sys2Proof.Machine.execStyZeropageX b s
  | .staZeropageX b => Sys2Proof.Machine.execStaZeropageX b s
  | .stxZeropageY b => Sys2Proof.Machine.execStxZeropageY b s
  | .saxZeropageY b => Sys2Proof.Machine.execSaxZeropageY b s
  | .tya => Sys2Proof.Machine.execTya s
  | .staAbsoluteY w => Sys2Proof.Machine.execStaAbsoluteY w s
  | .txs => Sys2Proof.Machine.execTxs s
  | .staAbsoluteX w => Sys2Proof.Machine.execStaAbsoluteX w s
  | .ldyImmediate b => Sys2Proof.Machine.execLdyImmediate b s
  | .ldaIndexIndirect b => Sys2Proof.Machine.execLdaIndexIndirect b s
  | .ldxImmediate b => Sys2Proof.Machine.execLdxImmediate b s
  | .laxIndexIndirect b => Sys2Proof.Machine.execLaxIndexIndirect b s
  | .ldyZeropage b => Sys2Proof.Machine.execLdyZeropage b s
  | .ldaZeropage b => Sys2Proof.Machine.execLdaZeropage b s
  | .ldxZeropage b => Sys2Proof.Machine.execLdxZeropage b s
  | .laxZeropage b => Sys2Proof.Machine.execLaxZeropage b s
  | .tay => Sys2Proof.Machine.execTay s
  | .ldaImmediate b => Sys2Proof.Machine.execLdaImmediate b s
  | .tax => Sys2Proof.Machine.execTax s
  | .ldyAbsolute w => Sys2Proof.Machine.execLdyAbsolute w s
  | .ldaAbsolute w => Sys2Proof.Machine.execLdaAbsolute w s
  | .ldxAbsolute w => Sys2Proof.Machine.execLdxAbsolute w s
  | .laxAbsolute w => Sys2Proof.Machine.execLaxAbsolute w s
  | .bcs d => Sys2Proof.Machine.execBcs d s
  | .ldaIndirectIndex b => Sys2Proof.Machine.execLdaIndirectIndex b s
  | .laxIndirectIndex b => Sys2Proof.Machine.execLaxIndirectIndex b s
  | .ldyZeropageX b => Sys2Proof.Machine.execLdyZeropageX b s
  | .ldaZeropageX b => Sys2Proof.Machine.execLdaZeropageX b s
  | .ldxZeropageY b => Sys2Proof.Machine.execLdxZeropageY b s
  | .laxZeropageY b => Sys2Proof.Machine.execLaxZeropageY b s
  | .clv => Sys2Proof.Machine.execClv s
  | .ldaAbsoluteY w => Sys2Proof.Machine.execLdaAbsoluteY w s
  | .tsx => Sys2Proof.Machine.execTsx s
  | .ldyAbsoluteX w => Sys2Proof.Machine.execLdyAbsoluteX w s
  | .ldaAbsoluteX w => Sys2Proof.Machine.execLdaAbsoluteX w s
  | .ldxAbsoluteY w => Sys2Proof.Machine.execLdxAbsoluteY w s
  | .laxAbsoluteY w => Sys2Proof.Machine.execLaxAbsoluteY w s
  | .cpyImmediate b => Sys2Proof.Machine.execCpyImmediate b s
  | .cmpIndexIndirect b => Sys2Proof.Machine.execCmpIndexIndirect b s
  | .nopC2 b => Sys2Proof.Machine.execNopC2 b s
  | .dcpIndexIndirect b => Sys2Proof.Machine.execDcpIndexIndirect b s
  | .cpyZeropage b => Sys2Proof.Machine.execCpyZeropage b s
  | .cmpZeropage b => Sys2Proof.Machine.execCmpZeropage b s
  | .decZeropage b => Sys2Proof.Machine.execDecZeropage b s
  | .dcpZeropage b => Sys2Proof.Machine.execDcpZeropage b s
  | .iny => Sys2Proof.Machine.execIny s
  | .cmpImmediate b => Sys2Proof.Machine.execCmpImmediate b s
  | .dex => Sys2Proof.Machine.execDex s
  | .cpyAbsolute w => Sys2Proof.Machine.execCpyAbsolute w s
  | .cmpAbsolute w => Sys2Proof.Machine.execCmpAbsolute w s
  | .decAbsolute w => Sys2Proof.Machine.execDecAbsolute w s
  | .dcpAbsolute w => Sys2Proof.Machine.execDcpAbsolute w s
  | .bne d => Sys2Proof.Machine.execBne d s
  | .cmpIndirectIndex b => Sys2Proof.Machine.execCmpIndirectIndex b s
  | .dcpIndirectIndex b => Sys2Proof.Machine.execDcpIndirectIndex b s
  | .nopD4 b => Sys2Proof.Machine.execNopD4 b s
  | .cmpZeropageX b => Sys2Proof.Machine.execCmpZeropageX b s
  | .decZeropageX b => Sys2Proof.Machine.execDecZeropageX b s
  | .dcpZeropageX b => Sys2Proof.Machine.execDcpZeropageX b s
  | .cld => Sys2Proof.Machine.execCld s
  | .cmpAbsoluteY w => Sys2Proof.Machine.execCmpAbsoluteY w s
  | .nopDA => Sys2Proof.Machine.execNopDA s
  | .dcpAbsoluteY w => Sys2Proof.Machine.execDcpAbsoluteY w s
  | .nopDC w => Sys2Proof.Machine.execNopDC w s
  | .cmpAbsoluteX w => Sys2Proof.Machine.execCmpAbsoluteX w s
  | .decAbsoluteX w => Sys2Proof.Machine.execDecAbsoluteX w s
  | .dcpAbsoluteX w => Sys2Proof.Machine.execDcpAbsoluteX w s
  | .cpxImmediate b => Sys2Proof.Machine.execCpxImmediate b s
  | .sbcIndexIndirect b => Sys2Proof.Machine.execSbcIndexIndirect b s
  | .nopE2 b => Sys2Proof.Machine.execNopE2 b s
  | .iscIndexIndirect b => Sys2Proof.Machine.execIscIndexIndirect b s
  | .cpxZeropage b => Sys2Proof.Machine.execCpxZeropage b s
  | .sbcZeropage b => Sys2Proof.Machine.execSbcZeropage b s
  | .incZeropage b => Sys2Proof.Machine.execIncZeropage b s
  | .iscZeropage b => Sys2Proof.Machine.execIscZeropage b s
  | .inx => Sys2Proof.Machine.execInx s
  | .sbcImmediate b => Sys2Proof.Machine.execSbcImmediate b s
  | .nop => Sys2Proof.Machine.execNop s
  | .sbcImmediateEB b => Sys2Proof.Machine.execSbcImmediateEB b s
  | .cpxAbsolute w => Sys2Proof.Machine.execCpxAbsolute w s
  | .sbcAbsolute w => Sys2Proof.Machine.execSbcAbsolute w s
  | .incAbsolute w => Sys2Proof.Machine.execIncAbsolute w s
  | .iscAbsolute w => Sys2Proof.Machine.execIscAbsolute w s
  | .beq d => Sys2Proof.Machine.execBeq d s
  | .sbcIndirectIndex b => Sys2Proof.Machine.execSbcIndirectIndex b s
  | .iscIndirectIndex b => Sys2Proof.Machine.execIscIndirectIndex b s
  | .nopF4 b => Sys2Proof.Machine.execNopF4 b s
  | .sbcZeropageX b => Sys2Proof.Machine.execSbcZeropageX b s
  | .incZeropageX b => Sys2Proof.Machine.execIncZeropageX b s
  | .iscZeropageX b => Sys2Proof.Machine.execIscZeropageX b s
  | .sed => Sys2Proof.Machine.execSed s
  | .sbcAbsoluteY w => Sys2Proof.Machine.execSbcAbsoluteY w s
  | .nopFA => Sys2Proof.Machine.execNopFA s
  | .iscAbsoluteY w => Sys2Proof.Machine.execIscAbsoluteY w s
  | .nopFC w => Sys2Proof.Machine.execNopFC w s
  | .sbcAbsoluteX w => Sys2Proof.Machine.execSbcAbsoluteX w s
  | .incAbsoluteX w => Sys2Proof.Machine.execIncAbsoluteX w s
  | .iscAbsoluteX w => Sys2Proof.Machine.execIscAbsoluteX w s
  | .unmapped op => Sys2Proof.Machine.execUnmapped op s

end Sys2Proof.Machine
end

