-- ==== Sys2Proof/Machine/Render.lean ====
section
/-! DEFINITION. The picture unit's dot and scanline state machine and its renderer (47_ppu_timing_render.md). -/

namespace Sys2Proof.Machine

/-- `CoarseXInc(v)` (47_ppu_timing_render.md R381). -/
def coarseXInc (v : BitVec 15) : BitVec 15 :=
  if field v 0 5 = 31 then putField v 0 5 0 ^^^ 0x0400 else v + 1

/-- `YInc(v)` (47_ppu_timing_render.md R382): the 29-row wrap toggles the vertical nametable, the 31-row wrap does
not. -/
def yInc (v : BitVec 15) : BitVec 15 :=
  if field v 12 3 < 7 then v + 0x1000
  else
    let v := putField v 12 3 0
    if field v 5 5 = 29 then putField v 5 5 0 ^^^ 0x0800
    else if field v 5 5 = 31 then putField v 5 5 0
    else v + 0x20

/-- The horizontal scroll bits of `t` copied into `v` (47_ppu_timing_render.md R383). -/
def copyHorizontal (t v : BitVec 15) : BitVec 15 := (v &&& 0x7BE0) ||| (t &&& 0x041F)

/-- The vertical scroll bits of `t` copied into `v` (47_ppu_timing_render.md R384). -/
def copyVertical (t v : BitVec 15) : BitVec 15 := (v &&& 0x041F) ||| (t &&& 0x7BE0)

/-- `TilePixel(table, tile, row, col)` (47_ppu_timing_render.md R386): plane 0 is the low bit, plane 1 lies 8 bytes
on, column 0 is bit 7. -/
def tilePixel (mir : Mirroring) (u : Ppu) (table : Bool) (tile : Byte) (row col : Nat) : Nat :=
  let base := table.toNat * 0x1000 + tile.toNat * 16
  let lo := vramRead mir u (base + row)
  let hi := vramRead mir u (base + row + 8)
  (lo.getLsbD (7 - col)).toNat + 2 * (hi.getLsbD (7 - col)).toNat

/-- `AttrSel(va)` (47_ppu_timing_render.md R388). -/
def attrSel (mir : Mirroring) (u : Ppu) (va : BitVec 15) : Nat :=
  let at_ := vramRead mir u (0x23C0 + field va 10 2 * 0x400 + field va 7 3 * 8 + field va 2 3)
  let shift := field va 6 1 * 4 + field va 1 1 * 2
  at_.toNat / 2 ^ shift % 4

/-- A pixel of the background layer: the 2-bit colour (0 is transparent) and the palette selector. -/
structure BgPixel where
  colour  : Nat
  palette : Nat
  deriving DecidableEq, Repr

/-- `BgPixel(px)` (47_ppu_timing_render.md R387): the fine X scroll looks at most one tile ahead. -/
def bgPixel (mir : Mirroring) (u : Ppu) (px : Nat) : BgPixel :=
  if u.mask.getLsbD 3 then
    let col := u.x.toNat + px % 8
    let va := if 8 ≤ col then coarseXInc u.v else u.v
    let tile := vramRead mir u (0x2000 + field va 0 12)
    { colour := tilePixel mir u (u.ctrl.getLsbD 4) tile (field va 12 3) (col % 8), palette := attrSel mir u va }
  else { colour := 0, palette := 0 }

/-- A pixel of the sprite layer: the OAM entry, its colour (never 0), its palette, and whether it is behind the
background. -/
structure SpPixel where
  index   : Nat
  colour  : Nat
  palette : Nat
  behind  : Bool
  deriving DecidableEq, Repr

/-- OAM entry `i` covers scanline `y`: `0 <= y - (Y + 1) <= 7` (47_ppu_timing_render.md R391, R396). -/
def spriteCovers (u : Ppu) (y i : Nat) : Bool :=
  let top := (u.oamByte (4 * i)).toNat + 1
  decide (top ≤ y) && decide (y - top ≤ 7)

/-- The opaque pixel OAM entry `i` produces at `(px, y)`, if any (47_ppu_timing_render.md R391). -/
def spriteAt (mir : Mirroring) (u : Ppu) (px y i : Nat) : Option SpPixel :=
  let at_ := u.oamByte (4 * i + 2)
  let left := (u.oamByte (4 * i + 3)).toNat
  if spriteCovers u y i ∧ left ≤ px ∧ px - left ≤ 7 then
    let row := y - ((u.oamByte (4 * i)).toNat + 1)
    let row := if at_.getLsbD 7 then 7 - row else row
    let cx := if at_.getLsbD 6 then 7 - (px - left) else px - left
    let c := tilePixel mir u (u.ctrl.getLsbD 3) (u.oamByte (4 * i + 1)) row cx
    if c = 0 then none else some { index := i, colour := c, palette := field at_ 0 2, behind := at_.getLsbD 5 }
  else none

/-- `SpPixel(px, y)` (47_ppu_timing_render.md R391): the first opaque pixel in OAM order; there is no cap of
sprites on a line (R392). -/
def spPixel (mir : Mirroring) (u : Ppu) (px y : Nat) : Option SpPixel :=
  if u.mask.getLsbD 4 then (List.range 64).findSome? (spriteAt mir u px y) else none

/-- The colour address of the pixel shown (47_ppu_timing_render.md R389, R390, R393). -/
def colourAddr (bg : BgPixel) (sp : Option SpPixel) : Nat :=
  let back := if bg.colour = 0 then 0x3F00 else 0x3F00 + bg.palette * 4 + bg.colour
  match sp with
  | none => back
  | some s => if bg.colour ≠ 0 ∧ s.behind then back else 0x3F10 + s.palette * 4 + s.colour

/-- The pixel write at scanline `y`, dot `px + 1`, and the sprite-zero test (47_ppu_timing_render.md R385, R395). -/
def writePixel (mir : Mirroring) (u : Ppu) (px y : Nat) : Ppu :=
  let bg := bgPixel mir u px
  let sp := spPixel mir u px y
  let hit := u.mask.getLsbD 3 && u.mask.getLsbD 4 && decide (sp.map (·.index) = some 0) && decide (bg.colour ≠ 0)
  { u with frame := Frame.set u.frame y px ((vramRead mir u (colourAddr bg sp)).setWidth 6),
           sprite0Hit := u.sprite0Hit || hit }

/-- More than eight OAM entries cover scanline `y` (47_ppu_timing_render.md R396). -/
def spritesOverflow (u : Ppu) (y : Nat) : Bool := decide (8 < ((List.range 64).filter (spriteCovers u y)).length)

/-- One position on (47_ppu_timing_render.md R370 (1)). -/
def advance (u : Ppu) : Ppu :=
  if u.dot + 1 = dotsPerScanline then
    { u with dot := 0, scanline := if u.scanline + 1 = scanlinesPerFrame then 0 else u.scanline + 1 }
  else { u with dot := u.dot + 1 }

/-- The position entered raises the NMI (47_ppu_timing_render.md R377). -/
def raisesNmi (u : Ppu) : Bool := decide (u.scanline = 241) && decide (u.dot = 1) && u.ctrl.getLsbD 7

/-- The step is entering a visible scanline (47_ppu_timing_render.md R371). -/
def Ppu.visible (u : Ppu) : Bool := decide (u.scanline ≤ 239)

/-- Rows 1 and 2 of 47_ppu_timing_render.md R374: vertical blank begins, the pre-render line clears the flags. -/
def actVblank (u : Ppu) : Ppu :=
  if u.scanline = 241 ∧ u.dot = 1 then { u with vblank := true }
  else if u.scanline = 261 ∧ u.dot = 1 then { u with vblank := false, sprite0Hit := false, spriteOverflow := false }
  else u

/-- Row 3 of 47_ppu_timing_render.md R374: the sprite-overflow evaluation. -/
def actOverflow (u : Ppu) : Ppu :=
  if u.visible ∧ u.dot = 1 ∧ u.renderingEnabled ∧ spritesOverflow u u.scanline then { u with spriteOverflow := true }
  else u

/-- Row 4 of 47_ppu_timing_render.md R374: the pixel. -/
def actPixel (mir : Mirroring) (u : Ppu) : Ppu :=
  if u.visible ∧ 1 ≤ u.dot ∧ u.dot ≤ 256 then writePixel mir u (u.dot - 1) u.scanline else u

/-- Row 5 of 47_ppu_timing_render.md R374: the coarse X increment. -/
def actCoarseX (u : Ppu) : Ppu :=
  if u.visible ∧ 1 ≤ u.dot ∧ u.dot ≤ 256 ∧ u.dot % 8 = 0 ∧ u.renderingEnabled then { u with v := coarseXInc u.v } else u

/-- Row 6 of 47_ppu_timing_render.md R374: the Y increment. -/
def actY (u : Ppu) : Ppu :=
  if u.visible ∧ u.dot = 256 ∧ u.renderingEnabled then { u with v := yInc u.v } else u

/-- Row 7 of 47_ppu_timing_render.md R374: the horizontal copy. -/
def actHorizontal (u : Ppu) : Ppu :=
  if (u.visible ∨ u.scanline = 261) ∧ u.dot = 257 ∧ u.renderingEnabled then { u with v := copyHorizontal u.t u.v } else u

/-- Row 8 of 47_ppu_timing_render.md R374: the vertical copy. -/
def actVertical (u : Ppu) : Ppu :=
  if u.scanline = 261 ∧ 280 ≤ u.dot ∧ u.dot ≤ 304 ∧ u.renderingEnabled then { u with v := copyVertical u.t u.v } else u

/-- `Ppu.step()` (47_ppu_timing_render.md R370): advance, then the rows of R374 in order. The NMI raise of row 1
belongs to the CPU's latch (`dotStep`). -/
def Ppu.step (mir : Mirroring) (u : Ppu) : Ppu :=
  actVertical (actHorizontal (actY (actCoarseX (actPixel mir (actOverflow (actVblank (advance u)))))))

/-- One dot of the machine: the picture unit's step and, at (241, 1) with the NMI enabled, the raise into
`nmi_pending` (47_ppu_timing_render.md R377, 10_state.md R32). -/
def dotStep (s : State) : State :=
  { s with ppu := Ppu.step s.cart.mirroring s.ppu,
           cpu := { s.cpu with nmiPending := s.cpu.nmiPending || raisesNmi (advance s.ppu) } }

/-- `k` dots (48_system_driver.md R420). -/
def runDots : Nat → State → State
  | 0, s => s
  | k + 1, s => runDots k (dotStep s)

end Sys2Proof.Machine
end

