-- ==== Sys2Proof/Machine/Driver.lean ====
section
/-! DEFINITION. The system driver around one CPU step (48_system_driver.md R420 to R422). -/

namespace Sys2Proof.Machine

/-- Turn (1) and the start of turn (2) of `System.step()` (48_system_driver.md R420): the dots owed from an earlier
`run_frame` run, and the DMA charge starts at zero. -/
def beginStep (s : State) : State :=
  { runDots s.dotDebt s with dotDebt := 0, dmaCycles := 0 }

/-- The dots a CPU step owes: three for each cycle it returned and each DMA cycle (48_system_driver.md R421). -/
def dotsOwed (s : State) : Nat := dotsPerCpuCycle * (s.cycles + s.dmaCycles)

/-- Turns (3) and (4) of `System.step()` (48_system_driver.md R420). -/
def endStep (s : State) : State := runDots (dotsOwed s) { s with dmaCycles := 0 }

end Sys2Proof.Machine
end

