-- ==== Sys2Proof/Machine/Fetch.lean ====
section
/-! DEFINITION. Fetching an instruction (40_addressing.md R160 (2) to (4), R161), and placing one where the next
step fetches it. -/

namespace Sys2Proof.Machine

/-- The instruction at the program counter: the opcode byte, then the operand bytes its slot calls for, in
ascending address order through the bus; the state has the program counter after the last byte. -/
def fetchInstr (s : State) : Instr × State :=
  let op := fetch8 s
  match formatOf op.1 with
  | .f1 i => (i, op.2)
  | .f2 f =>
    let b := fetch8 op.2
    (f b.1, b.2)
  | .f3 f =>
    let w := fetch16 op.2
    (f w.1, w.2)

/-- The address is backed by a storage cell, RAM or ROM, that can hold an instruction byte. -/
def backed (c : Cartridge) (a : Addr) : Bool :=
  match route c a with
  | .ram _ | .rom _ => true
  | _ => false

/-- Put a byte into the storage cell behind an address, from outside the machine. -/
def poke (a : Addr) (v : Byte) (s : State) : State :=
  match route s.cart a with
  | .ram i => { s with ram := Memory.set s.ram i v }
  | .rom i => { s with cart := { s.cart with prg := Memory.set s.cart.prg i v } }
  | _ => s

/-- Put bytes into the cells behind an address and those after it. -/
def pokes (a : Addr) : List Byte → State → State
  | [], s => s
  | b :: bs, s => pokes (a + 1) bs (poke a b s)

/-- Nothing comes before the next instruction: not halted, no dots owed, no interrupt that the poll would take. -/
def readyToFetch (s : State) : State :=
  { s with cpu := { s.cpu with nmiPending := false, halted := none }, dotDebt := 0, irqLine := s.irqLine && s.cpu.p.i }

/-- The bytes of one instruction placed at the program counter. Where a byte would fall outside RAM and ROM the
program counter is first moved to 0x0000, which is RAM (log entry 2). -/
def placeInstr (bs : List Byte) (s : State) : State :=
  let s := readyToFetch s
  let pc := s.cpu.pc
  let s := if backed s.cart pc && backed s.cart (pc + 1) && backed s.cart (pc + 2) then s else s.setPc 0
  pokes s.cpu.pc bs s

end Sys2Proof.Machine
end

