-- ==== Sys2Proof/Machine/Step.lean ====
section
/-! DEFINITION. One step of the machine: `Cpu.step()` (40_addressing.md R160) inside `System.step()`
(48_system_driver.md R420). -/

namespace Sys2Proof.Machine

/-- `Cpu.step()` (40_addressing.md R160): a halted CPU reports its error again; otherwise the poll, and then one
interrupt entry or one whole instruction. The count it returns is left in `cycles`. -/
def cpuStep (s : State) : Host.Outcome State Fault Refusal :=
  match s.cpu.halted with
  | some e => reportHalt e s
  | none =>
    match poll s with
    | .nmi => .next (takeNmi s)
    | .irq => .next (takeIrq s)
    | .instruction => exec (fetchInstr s).1 (fetchInstr s).2

/-- `System.step()` (48_system_driver.md R420): dots owed from before, one CPU step, and all of its dots. A halted
machine changes nothing (60_exceptions.md R461); a decode error runs no dots (R425). -/
def step (s : State) : Host.Outcome State Fault Refusal :=
  match s.cpu.halted with
  | some e => reportHalt e s
  | none => Result.andThen (cpuStep (beginStep s)) fun s => .next (endStep s)

/-- The state with the instruction whose bits are `w` (numbered as spec/opcode_table.json numbers them, the bits
above `nbits` zero) stored where the next step fetches it. -/
def State.withFetchWord (s : State) (nbits w : Nat) : State := placeInstr (tableBytes nbits w) s

end Sys2Proof.Machine
end

