-- ==== Sys2Proof/Machine/HostOps.lean ====
section
/-! DEFINITION. The host interface (48_system_driver.md R423 to R435): the cartridge image, `load_rom`, `reset`,
`run_frame`, `read_frame_pixels`, `write_controller_state`, and the interrupt line. -/

namespace Sys2Proof.Machine

/-- Construction errors of `load_rom` (60_exceptions.md R462). -/
inductive LoadError where
  | invalidSignature
  | truncated
  | unsupportedMapping
  deriving DecidableEq, Repr

/-- The program block counts the fixed mapping serves (48_system_driver.md R427). -/
def prgBlocksOf (n : Byte) : Option PrgBlocks :=
  if n = 1 then some .one else if n = 2 then some .two else none

/-- The pattern block counts the fixed mapping serves (48_system_driver.md R427). -/
def chrBlocksOf (n : Byte) : Option Nat := if n = 0 then some 0 else if n = 1 then some 1 else none

/-- The number of program bytes of an image (48_system_driver.md R427). -/
def prgBytes : PrgBlocks → Nat
  | .one => 16384
  | .two => 2 * 16384

/-- The cartridge in an image whose header has been accepted: program code right after the 16-byte header, pattern
data right after it, later bytes ignored (48_system_driver.md R427). -/
def cartridgeOf (bytes : List Byte) (prg : PrgBlocks) (chr : Nat) (flags : Byte) : Cartridge :=
  { prgBlocks := prg,
    prg := Memory.ofBytes 0 ((bytes.drop 16).take (prgBytes prg)),
    chr := if chr = 0 then none else some (Memory.ofBytes 0 ((bytes.drop (16 + prgBytes prg)).take 8192)),
    mirroring := if flags.getLsbD 0 then .vertical else .horizontal }

/-- Parsing a cartridge image (48_system_driver.md R427; the order of the checks is log entry 11). -/
def parseImage (bytes : List Byte) : Except LoadError Cartridge :=
  if bytes.length < 16 then .error .truncated
  else if bytes.take 4 ≠ [0x4E, 0x45, 0x53, 0x1A] then .error .invalidSignature
  else
    match prgBlocksOf (bytes.getD 4 0), chrBlocksOf (bytes.getD 5 0) with
    | some prg, some chr =>
      if bytes.length < 16 + prgBytes prg + 8192 * chr then .error .truncated
      else .ok (cartridgeOf bytes prg chr (bytes.getD 6 0))
    | _, _ => .error .unsupportedMapping

/-- `reset()` of a running machine (48_system_driver.md R428, 70_reset_and_hazards.md R480): every register, flag
and memory as at power-up with the same cartridge. The host's input level, the output stream, the published
frame and the index of the next free value are not the machine's and go on (log entry 12). -/
def hostReset (init : MemInit) (s : State) : State :=
  { State.powerUp s.config s.cart init with
    irqLine := s.irqLine, extWrites := s.extWrites, published := s.published, draws := s.draws }

/-- The host presents a level on `irq_line` (48_system_driver.md R432 (d)). -/
def setIrqLine (level : Bool) (s : State) : State := { s with irqLine := level }

/-- Pay `owed` dots out of what is left of the frame; the rest stays as dot debt (48_system_driver.md R423). -/
def payDots (owed budget : Nat) (s : State) : State :=
  runDots (min owed budget) { s with dmaCycles := 0, dotDebt := owed - min owed budget }

/-- The level the host presents on `irq_line` at the next instruction boundary (10_state.md R33): the head of its
list, or the level held so far where the list has ended (log entry 3). -/
def presentIrq (levels : List Bool) (s : State) : State :=
  match levels with
  | [] => s
  | l :: _ => setIrqLine l s

/-- The loop of `run_frame` (48_system_driver.md R423). Each turn owes at least one dot, so `fuel` turns are enough
for a budget of `fuel` dots. -/
def frameLoop : Nat → Nat → List Bool → State → Result
  | 0, _, _, s => .next s
  | fuel + 1, budget, levels, s =>
    if budget = 0 then .next s
    else
      Result.andThen (cpuStep { presentIrq levels s with dmaCycles := 0 }) fun s' =>
        frameLoop fuel (budget - min (dotsOwed s') budget) levels.tail (payDots (dotsOwed s') budget s')

/-- `run_frame()` (48_system_driver.md R423, R425, R429): exactly one frame of dots, debt first; the frame is
published. A halted machine reports its error and changes nothing. `levels` are the levels of `irq_line` at the
call's instruction boundaries. -/
def runFrame (levels : List Bool) (s : State) : Result :=
  match s.cpu.halted with
  | some e => reportHalt e s
  | none =>
    let pay := min s.dotDebt dotsPerFrame
    let s := { runDots pay s with dotDebt := s.dotDebt - pay }
    (frameLoop dotsPerFrame (dotsPerFrame - pay) levels s).andThen fun s => .next { s with published := some s.ppu.frame }

/-- A session (48_system_driver.md R434): no image loaded, or the machine. -/
abbrev Session := Option State

/-- What a call of the host reports when it does not complete. -/
inductive HostError where
  | load (e : LoadError)
  | notLoaded
  | fault (e : Fault)
  | refused (e : Refusal)
  deriving DecidableEq, Repr

/-- `load_rom(bytes)` (48_system_driver.md R426, 92_eei_decisions.md D47): a good image is installed and the machine
reset; a bad one is reported and leaves the session as it was, unloaded or with its earlier image (log entry 11). The
parameters and the host's side of a loaded session go on. -/
def Session.loadRom (bytes : List Byte) (init : MemInit) (ses : Session) : Session × Except HostError Unit :=
  match parseImage bytes with
  | .error e => (ses, .error (.load e))
  | .ok cart =>
    match ses with
    | none => (some (State.powerUp Config.default cart init), .ok ())
    | some s => (some (hostReset init { s with cart := cart }), .ok ())

/-- `reset()` (48_system_driver.md R428): it requires a loaded image. -/
def Session.reset (init : MemInit) (ses : Session) : Session × Except HostError Unit :=
  match ses with
  | none => (none, .error .notLoaded)
  | some s => (some (hostReset init s), .ok ())

/-- `run_frame() -> pixel_buffer` (48_system_driver.md R429). After a decode error the session holds the stopped
machine. -/
def Session.runFrame (levels : List Bool) (ses : Session) : Session × Except HostError Frame :=
  match ses with
  | none => (none, .error .notLoaded)
  | some s =>
    match Machine.runFrame levels s with
    | .next s' => (some s', .ok s'.ppu.frame)
    | .fault (.decodeError a op stopped) => (some stopped, .error (.fault (.decodeError a op stopped)))
    | .refused e => (some s, .error (.refused e))

/-- `read_frame_pixels() -> RGBA buffer` (48_system_driver.md R430): the last published frame, 240 rows of 256, through
the host's table; nothing before the first completed `run_frame`. -/
def readFramePixels (s : State) : Option (List (List (BitVec 32))) :=
  s.published.map fun f =>
    (List.range 240).map fun y => (List.range 256).map fun x => Config.rgbaOf (Frame.get f y x)

/-- `write_controller_state(buttons)` (48_system_driver.md R431): forwarded to the collaborator; no state of the core
changes. The encoding of `buttons` is the collaborator's and not specified: that it is one byte is the model's choice
(DESIGN CHOICE, log entry 15), on which nothing rests. -/
def writeControllerState (_buttons : Byte) (s : State) : State := s

end Sys2Proof.Machine
end

