-- ==== Sys2Proof/Safety.lean ====
section
/-! DEFINITION. What counts as a good state and a safe step, in the terms the statements use. -/

namespace Sys2Proof.Machine

/-- The picture unit's arrays are in canonical form and its position is one of the 341 by 262 (10_state.md R43, R46
to R48). -/
def Ppu.wf (u : Ppu) : Bool :=
  Memory.wf 256 u.oam && Memory.wf 8192 u.pattern && Memory.wf 2048 u.ntram && Palette.wf u.palette &&
  Frame.wf u.frame && decide (u.dot < dotsPerScanline) && decide (u.scanline < scanlinesPerFrame)

/-- The picture unit's position as a count of dots from (0, 0) (47_ppu_timing_render.md R372). -/
def Ppu.position (u : Ppu) : Nat := u.scanline * dotsPerScanline + u.dot

/-- The invariant of the machine: every memory in canonical form, the picture unit at a legal position. -/
def State.wf (s : State) : Bool := Memory.wf 2048 s.ram && Cartridge.wf s.cart && Ppu.wf s.ppu

/-- The machine is not halted by a decode error (10_state.md R34). -/
def State.running (s : State) : Bool := s.cpu.halted.isNone

/-- The step completes: neither a fault nor a refusal. -/
def SafeStep (s : State) : Prop := ∃ t, step s = .next t

end Sys2Proof.Machine
end

