-- ==== Sys2Proof/Certificates/Slice0/Obligations.lean ====
section
/-! DEFINITION. The statements for the provers. `Sys2Proof.Spec` holds what they are written in: the mnemonics, the rows
of each rule's `Encodings` line, the effects of the instructions in integers, and reading and writing bytes; then one
`def Obligations.<Name> : Prop` each. The docstrings name the rule or section each one rests on. -/

namespace Sys2Proof.Spec

open Sys2Proof.Machine

/-! ## Mnemonics and the rows of the opcode map -/

/-- The mnemonics of the mapped instructions (30_encoding.md R135). -/
inductive Mnemonic where
  | lda | ldx | ldy | sta | stx | sty | tax | tay | txa | tya | tsx | txs | and | ora | eor | asl
  | lsr | rol | ror | bit | cmp | cpx | cpy | inc | dec | inx | iny | dex | dey | adc | sbc | pha
  | pla | php | plp | jmp | jsr | rts | rti | bpl | bmi | bvc | bvs | bcc | bcs | bne | beq | clc
  | sec | cli | sei | clv | cld | sed | brk | nop | slo | rla | sre | rra | sax | lax | dcp | isc
  deriving DecidableEq, Repr

/-- The mnemonic of an instruction; none for an unmapped slot. -/
def mnemonic : Instr → Option Mnemonic
  | .ldaIndexIndirect _ => some .lda
  | .ldaZeropage _ => some .lda
  | .ldaImmediate _ => some .lda
  | .ldaAbsolute _ => some .lda
  | .ldaIndirectIndex _ => some .lda
  | .ldaZeropageX _ => some .lda
  | .ldaAbsoluteY _ => some .lda
  | .ldaAbsoluteX _ => some .lda
  | .ldxImmediate _ => some .ldx
  | .ldxZeropage _ => some .ldx
  | .ldxAbsolute _ => some .ldx
  | .ldxZeropageY _ => some .ldx
  | .ldxAbsoluteY _ => some .ldx
  | .ldyImmediate _ => some .ldy
  | .ldyZeropage _ => some .ldy
  | .ldyAbsolute _ => some .ldy
  | .ldyZeropageX _ => some .ldy
  | .ldyAbsoluteX _ => some .ldy
  | .staIndexIndirect _ => some .sta
  | .staZeropage _ => some .sta
  | .staAbsolute _ => some .sta
  | .staIndirectIndex _ => some .sta
  | .staZeropageX _ => some .sta
  | .staAbsoluteY _ => some .sta
  | .staAbsoluteX _ => some .sta
  | .stxZeropage _ => some .stx
  | .stxAbsolute _ => some .stx
  | .stxZeropageY _ => some .stx
  | .styZeropage _ => some .sty
  | .styAbsolute _ => some .sty
  | .styZeropageX _ => some .sty
  | .tax => some .tax
  | .tay => some .tay
  | .txa => some .txa
  | .tya => some .tya
  | .tsx => some .tsx
  | .txs => some .txs
  | .andIndexIndirect _ => some .and
  | .andZeropage _ => some .and
  | .andImmediate _ => some .and
  | .andAbsolute _ => some .and
  | .andIndirectIndex _ => some .and
  | .andZeropageX _ => some .and
  | .andAbsoluteY _ => some .and
  | .andAbsoluteX _ => some .and
  | .oraIndexIndirect _ => some .ora
  | .oraZeropage _ => some .ora
  | .oraImmediate _ => some .ora
  | .oraAbsolute _ => some .ora
  | .oraIndirectIndex _ => some .ora
  | .oraZeropageX _ => some .ora
  | .oraAbsoluteY _ => some .ora
  | .oraAbsoluteX _ => some .ora
  | .eorIndexIndirect _ => some .eor
  | .eorZeropage _ => some .eor
  | .eorImmediate _ => some .eor
  | .eorAbsolute _ => some .eor
  | .eorIndirectIndex _ => some .eor
  | .eorZeropageX _ => some .eor
  | .eorAbsoluteY _ => some .eor
  | .eorAbsoluteX _ => some .eor
  | .aslZeropage _ => some .asl
  | .aslAccumulator => some .asl
  | .aslAbsolute _ => some .asl
  | .aslZeropageX _ => some .asl
  | .aslAbsoluteX _ => some .asl
  | .lsrZeropage _ => some .lsr
  | .lsrAccumulator => some .lsr
  | .lsrAbsolute _ => some .lsr
  | .lsrZeropageX _ => some .lsr
  | .lsrAbsoluteX _ => some .lsr
  | .rolZeropage _ => some .rol
  | .rolAccumulator => some .rol
  | .rolAbsolute _ => some .rol
  | .rolZeropageX _ => some .rol
  | .rolAbsoluteX _ => some .rol
  | .rorZeropage _ => some .ror
  | .rorAccumulator => some .ror
  | .rorAbsolute _ => some .ror
  | .rorZeropageX _ => some .ror
  | .rorAbsoluteX _ => some .ror
  | .bitZeropage _ => some .bit
  | .bitAbsolute _ => some .bit
  | .cmpIndexIndirect _ => some .cmp
  | .cmpZeropage _ => some .cmp
  | .cmpImmediate _ => some .cmp
  | .cmpAbsolute _ => some .cmp
  | .cmpIndirectIndex _ => some .cmp
  | .cmpZeropageX _ => some .cmp
  | .cmpAbsoluteY _ => some .cmp
  | .cmpAbsoluteX _ => some .cmp
  | .cpxImmediate _ => some .cpx
  | .cpxZeropage _ => some .cpx
  | .cpxAbsolute _ => some .cpx
  | .cpyImmediate _ => some .cpy
  | .cpyZeropage _ => some .cpy
  | .cpyAbsolute _ => some .cpy
  | .incZeropage _ => some .inc
  | .incAbsolute _ => some .inc
  | .incZeropageX _ => some .inc
  | .incAbsoluteX _ => some .inc
  | .decZeropage _ => some .dec
  | .decAbsolute _ => some .dec
  | .decZeropageX _ => some .dec
  | .decAbsoluteX _ => some .dec
  | .inx => some .inx
  | .iny => some .iny
  | .dex => some .dex
  | .dey => some .dey
  | .adcIndexIndirect _ => some .adc
  | .adcZeropage _ => some .adc
  | .adcImmediate _ => some .adc
  | .adcAbsolute _ => some .adc
  | .adcIndirectIndex _ => some .adc
  | .adcZeropageX _ => some .adc
  | .adcAbsoluteY _ => some .adc
  | .adcAbsoluteX _ => some .adc
  | .sbcIndexIndirect _ => some .sbc
  | .sbcZeropage _ => some .sbc
  | .sbcImmediate _ => some .sbc
  | .sbcAbsolute _ => some .sbc
  | .sbcIndirectIndex _ => some .sbc
  | .sbcZeropageX _ => some .sbc
  | .sbcAbsoluteY _ => some .sbc
  | .sbcAbsoluteX _ => some .sbc
  | .sbcImmediateEB _ => some .sbc
  | .pha => some .pha
  | .pla => some .pla
  | .php => some .php
  | .plp => some .plp
  | .jmpAbsolute _ => some .jmp
  | .jmpIndirect _ => some .jmp
  | .jsr _ => some .jsr
  | .rts => some .rts
  | .rti => some .rti
  | .bpl _ => some .bpl
  | .bmi _ => some .bmi
  | .bvc _ => some .bvc
  | .bvs _ => some .bvs
  | .bcc _ => some .bcc
  | .bcs _ => some .bcs
  | .bne _ => some .bne
  | .beq _ => some .beq
  | .clc => some .clc
  | .sec => some .sec
  | .cli => some .cli
  | .sei => some .sei
  | .clv => some .clv
  | .cld => some .cld
  | .sed => some .sed
  | .brk => some .brk
  | .nop => some .nop
  | .nop1A => some .nop
  | .nop3A => some .nop
  | .nop5A => some .nop
  | .nop7A => some .nop
  | .nopDA => some .nop
  | .nopFA => some .nop
  | .nop80 _ => some .nop
  | .nop82 _ => some .nop
  | .nop89 _ => some .nop
  | .nopC2 _ => some .nop
  | .nopE2 _ => some .nop
  | .nop04 _ => some .nop
  | .nop44 _ => some .nop
  | .nop64 _ => some .nop
  | .nop14 _ => some .nop
  | .nop34 _ => some .nop
  | .nop54 _ => some .nop
  | .nop74 _ => some .nop
  | .nopD4 _ => some .nop
  | .nopF4 _ => some .nop
  | .nop0C _ => some .nop
  | .nop1C _ => some .nop
  | .nop3C _ => some .nop
  | .nop5C _ => some .nop
  | .nop7C _ => some .nop
  | .nopDC _ => some .nop
  | .nopFC _ => some .nop
  | .sloIndexIndirect _ => some .slo
  | .sloZeropage _ => some .slo
  | .sloAbsolute _ => some .slo
  | .sloIndirectIndex _ => some .slo
  | .sloZeropageX _ => some .slo
  | .sloAbsoluteY _ => some .slo
  | .sloAbsoluteX _ => some .slo
  | .rlaIndexIndirect _ => some .rla
  | .rlaZeropage _ => some .rla
  | .rlaAbsolute _ => some .rla
  | .rlaIndirectIndex _ => some .rla
  | .rlaZeropageX _ => some .rla
  | .rlaAbsoluteY _ => some .rla
  | .rlaAbsoluteX _ => some .rla
  | .sreIndexIndirect _ => some .sre
  | .sreZeropage _ => some .sre
  | .sreAbsolute _ => some .sre
  | .sreIndirectIndex _ => some .sre
  | .sreZeropageX _ => some .sre
  | .sreAbsoluteY _ => some .sre
  | .sreAbsoluteX _ => some .sre
  | .rraIndexIndirect _ => some .rra
  | .rraZeropage _ => some .rra
  | .rraAbsolute _ => some .rra
  | .rraIndirectIndex _ => some .rra
  | .rraZeropageX _ => some .rra
  | .rraAbsoluteY _ => some .rra
  | .rraAbsoluteX _ => some .rra
  | .saxIndexIndirect _ => some .sax
  | .saxZeropage _ => some .sax
  | .saxAbsolute _ => some .sax
  | .saxZeropageY _ => some .sax
  | .laxIndexIndirect _ => some .lax
  | .laxZeropage _ => some .lax
  | .laxAbsolute _ => some .lax
  | .laxIndirectIndex _ => some .lax
  | .laxZeropageY _ => some .lax
  | .laxAbsoluteY _ => some .lax
  | .dcpIndexIndirect _ => some .dcp
  | .dcpZeropage _ => some .dcp
  | .dcpAbsolute _ => some .dcp
  | .dcpIndirectIndex _ => some .dcp
  | .dcpZeropageX _ => some .dcp
  | .dcpAbsoluteY _ => some .dcp
  | .dcpAbsoluteX _ => some .dcp
  | .iscIndexIndirect _ => some .isc
  | .iscZeropage _ => some .isc
  | .iscAbsolute _ => some .isc
  | .iscIndirectIndex _ => some .isc
  | .iscZeropageX _ => some .isc
  | .iscAbsoluteY _ => some .isc
  | .iscAbsoluteX _ => some .isc
  | .unmapped _ => none

/-- The rows of the instructions that read their operand (41_load_store_transfer.md, 42_logic_shift_bit.md,
43_compare_incdec_arith.md, 45_unofficial.md, the `Encodings` lines): mnemonic, opcode byte, instruction, operand
source, cycle column. -/
inductive ReadRow : Mnemonic → Byte → Instr → Source → Cost → Prop where
  | ldaIndexIndirect (b : Byte) : ReadRow .lda 0xA1 (.ldaIndexIndirect b) (.memory (.indexIndirect b)) (.fixed 6)
  | ldaZeropage (b : Byte) : ReadRow .lda 0xA5 (.ldaZeropage b) (.memory (.zeropage b)) (.fixed 3)
  | ldaImmediate (b : Byte) : ReadRow .lda 0xA9 (.ldaImmediate b) (.immediate b) (.fixed 2)
  | ldaAbsolute (w : Addr) : ReadRow .lda 0xAD (.ldaAbsolute w) (.memory (.absolute w)) (.fixed 4)
  | ldaIndirectIndex (b : Byte) : ReadRow .lda 0xB1 (.ldaIndirectIndex b) (.memory (.indirectIndex b)) (.plusP 5)
  | ldaZeropageX (b : Byte) : ReadRow .lda 0xB5 (.ldaZeropageX b) (.memory (.zeropageX b)) (.fixed 4)
  | ldaAbsoluteY (w : Addr) : ReadRow .lda 0xB9 (.ldaAbsoluteY w) (.memory (.absoluteY w)) (.plusP 4)
  | ldaAbsoluteX (w : Addr) : ReadRow .lda 0xBD (.ldaAbsoluteX w) (.memory (.absoluteX w)) (.plusP 4)
  | ldxImmediate (b : Byte) : ReadRow .ldx 0xA2 (.ldxImmediate b) (.immediate b) (.fixed 2)
  | ldxZeropage (b : Byte) : ReadRow .ldx 0xA6 (.ldxZeropage b) (.memory (.zeropage b)) (.fixed 3)
  | ldxAbsolute (w : Addr) : ReadRow .ldx 0xAE (.ldxAbsolute w) (.memory (.absolute w)) (.fixed 4)
  | ldxZeropageY (b : Byte) : ReadRow .ldx 0xB6 (.ldxZeropageY b) (.memory (.zeropageY b)) (.fixed 4)
  | ldxAbsoluteY (w : Addr) : ReadRow .ldx 0xBE (.ldxAbsoluteY w) (.memory (.absoluteY w)) (.plusP 4)
  | ldyImmediate (b : Byte) : ReadRow .ldy 0xA0 (.ldyImmediate b) (.immediate b) (.fixed 2)
  | ldyZeropage (b : Byte) : ReadRow .ldy 0xA4 (.ldyZeropage b) (.memory (.zeropage b)) (.fixed 3)
  | ldyAbsolute (w : Addr) : ReadRow .ldy 0xAC (.ldyAbsolute w) (.memory (.absolute w)) (.fixed 4)
  | ldyZeropageX (b : Byte) : ReadRow .ldy 0xB4 (.ldyZeropageX b) (.memory (.zeropageX b)) (.fixed 4)
  | ldyAbsoluteX (w : Addr) : ReadRow .ldy 0xBC (.ldyAbsoluteX w) (.memory (.absoluteX w)) (.plusP 4)
  | laxIndexIndirect (b : Byte) : ReadRow .lax 0xA3 (.laxIndexIndirect b) (.memory (.indexIndirect b)) (.fixed 6)
  | laxZeropage (b : Byte) : ReadRow .lax 0xA7 (.laxZeropage b) (.memory (.zeropage b)) (.fixed 3)
  | laxAbsolute (w : Addr) : ReadRow .lax 0xAF (.laxAbsolute w) (.memory (.absolute w)) (.fixed 4)
  | laxIndirectIndex (b : Byte) : ReadRow .lax 0xB3 (.laxIndirectIndex b) (.memory (.indirectIndex b)) (.plusP 5)
  | laxZeropageY (b : Byte) : ReadRow .lax 0xB7 (.laxZeropageY b) (.memory (.zeropageY b)) (.fixed 4)
  | laxAbsoluteY (w : Addr) : ReadRow .lax 0xBF (.laxAbsoluteY w) (.memory (.absoluteY w)) (.plusP 4)
  | andIndexIndirect (b : Byte) : ReadRow .and 0x21 (.andIndexIndirect b) (.memory (.indexIndirect b)) (.fixed 6)
  | andZeropage (b : Byte) : ReadRow .and 0x25 (.andZeropage b) (.memory (.zeropage b)) (.fixed 3)
  | andImmediate (b : Byte) : ReadRow .and 0x29 (.andImmediate b) (.immediate b) (.fixed 2)
  | andAbsolute (w : Addr) : ReadRow .and 0x2D (.andAbsolute w) (.memory (.absolute w)) (.fixed 4)
  | andIndirectIndex (b : Byte) : ReadRow .and 0x31 (.andIndirectIndex b) (.memory (.indirectIndex b)) (.plusP 5)
  | andZeropageX (b : Byte) : ReadRow .and 0x35 (.andZeropageX b) (.memory (.zeropageX b)) (.fixed 4)
  | andAbsoluteY (w : Addr) : ReadRow .and 0x39 (.andAbsoluteY w) (.memory (.absoluteY w)) (.plusP 4)
  | andAbsoluteX (w : Addr) : ReadRow .and 0x3D (.andAbsoluteX w) (.memory (.absoluteX w)) (.plusP 4)
  | oraIndexIndirect (b : Byte) : ReadRow .ora 0x01 (.oraIndexIndirect b) (.memory (.indexIndirect b)) (.fixed 6)
  | oraZeropage (b : Byte) : ReadRow .ora 0x05 (.oraZeropage b) (.memory (.zeropage b)) (.fixed 3)
  | oraImmediate (b : Byte) : ReadRow .ora 0x09 (.oraImmediate b) (.immediate b) (.fixed 2)
  | oraAbsolute (w : Addr) : ReadRow .ora 0x0D (.oraAbsolute w) (.memory (.absolute w)) (.fixed 4)
  | oraIndirectIndex (b : Byte) : ReadRow .ora 0x11 (.oraIndirectIndex b) (.memory (.indirectIndex b)) (.plusP 5)
  | oraZeropageX (b : Byte) : ReadRow .ora 0x15 (.oraZeropageX b) (.memory (.zeropageX b)) (.fixed 4)
  | oraAbsoluteY (w : Addr) : ReadRow .ora 0x19 (.oraAbsoluteY w) (.memory (.absoluteY w)) (.plusP 4)
  | oraAbsoluteX (w : Addr) : ReadRow .ora 0x1D (.oraAbsoluteX w) (.memory (.absoluteX w)) (.plusP 4)
  | eorIndexIndirect (b : Byte) : ReadRow .eor 0x41 (.eorIndexIndirect b) (.memory (.indexIndirect b)) (.fixed 6)
  | eorZeropage (b : Byte) : ReadRow .eor 0x45 (.eorZeropage b) (.memory (.zeropage b)) (.fixed 3)
  | eorImmediate (b : Byte) : ReadRow .eor 0x49 (.eorImmediate b) (.immediate b) (.fixed 2)
  | eorAbsolute (w : Addr) : ReadRow .eor 0x4D (.eorAbsolute w) (.memory (.absolute w)) (.fixed 4)
  | eorIndirectIndex (b : Byte) : ReadRow .eor 0x51 (.eorIndirectIndex b) (.memory (.indirectIndex b)) (.plusP 5)
  | eorZeropageX (b : Byte) : ReadRow .eor 0x55 (.eorZeropageX b) (.memory (.zeropageX b)) (.fixed 4)
  | eorAbsoluteY (w : Addr) : ReadRow .eor 0x59 (.eorAbsoluteY w) (.memory (.absoluteY w)) (.plusP 4)
  | eorAbsoluteX (w : Addr) : ReadRow .eor 0x5D (.eorAbsoluteX w) (.memory (.absoluteX w)) (.plusP 4)
  | bitZeropage (b : Byte) : ReadRow .bit 0x24 (.bitZeropage b) (.memory (.zeropage b)) (.fixed 3)
  | bitAbsolute (w : Addr) : ReadRow .bit 0x2C (.bitAbsolute w) (.memory (.absolute w)) (.fixed 4)
  | cmpIndexIndirect (b : Byte) : ReadRow .cmp 0xC1 (.cmpIndexIndirect b) (.memory (.indexIndirect b)) (.fixed 6)
  | cmpZeropage (b : Byte) : ReadRow .cmp 0xC5 (.cmpZeropage b) (.memory (.zeropage b)) (.fixed 3)
  | cmpImmediate (b : Byte) : ReadRow .cmp 0xC9 (.cmpImmediate b) (.immediate b) (.fixed 2)
  | cmpAbsolute (w : Addr) : ReadRow .cmp 0xCD (.cmpAbsolute w) (.memory (.absolute w)) (.fixed 4)
  | cmpIndirectIndex (b : Byte) : ReadRow .cmp 0xD1 (.cmpIndirectIndex b) (.memory (.indirectIndex b)) (.plusP 5)
  | cmpZeropageX (b : Byte) : ReadRow .cmp 0xD5 (.cmpZeropageX b) (.memory (.zeropageX b)) (.fixed 4)
  | cmpAbsoluteY (w : Addr) : ReadRow .cmp 0xD9 (.cmpAbsoluteY w) (.memory (.absoluteY w)) (.plusP 4)
  | cmpAbsoluteX (w : Addr) : ReadRow .cmp 0xDD (.cmpAbsoluteX w) (.memory (.absoluteX w)) (.plusP 4)
  | cpxImmediate (b : Byte) : ReadRow .cpx 0xE0 (.cpxImmediate b) (.immediate b) (.fixed 2)
  | cpxZeropage (b : Byte) : ReadRow .cpx 0xE4 (.cpxZeropage b) (.memory (.zeropage b)) (.fixed 3)
  | cpxAbsolute (w : Addr) : ReadRow .cpx 0xEC (.cpxAbsolute w) (.memory (.absolute w)) (.fixed 4)
  | cpyImmediate (b : Byte) : ReadRow .cpy 0xC0 (.cpyImmediate b) (.immediate b) (.fixed 2)
  | cpyZeropage (b : Byte) : ReadRow .cpy 0xC4 (.cpyZeropage b) (.memory (.zeropage b)) (.fixed 3)
  | cpyAbsolute (w : Addr) : ReadRow .cpy 0xCC (.cpyAbsolute w) (.memory (.absolute w)) (.fixed 4)
  | adcIndexIndirect (b : Byte) : ReadRow .adc 0x61 (.adcIndexIndirect b) (.memory (.indexIndirect b)) (.fixed 6)
  | adcZeropage (b : Byte) : ReadRow .adc 0x65 (.adcZeropage b) (.memory (.zeropage b)) (.fixed 3)
  | adcImmediate (b : Byte) : ReadRow .adc 0x69 (.adcImmediate b) (.immediate b) (.fixed 2)
  | adcAbsolute (w : Addr) : ReadRow .adc 0x6D (.adcAbsolute w) (.memory (.absolute w)) (.fixed 4)
  | adcIndirectIndex (b : Byte) : ReadRow .adc 0x71 (.adcIndirectIndex b) (.memory (.indirectIndex b)) (.plusP 5)
  | adcZeropageX (b : Byte) : ReadRow .adc 0x75 (.adcZeropageX b) (.memory (.zeropageX b)) (.fixed 4)
  | adcAbsoluteY (w : Addr) : ReadRow .adc 0x79 (.adcAbsoluteY w) (.memory (.absoluteY w)) (.plusP 4)
  | adcAbsoluteX (w : Addr) : ReadRow .adc 0x7D (.adcAbsoluteX w) (.memory (.absoluteX w)) (.plusP 4)
  | sbcIndexIndirect (b : Byte) : ReadRow .sbc 0xE1 (.sbcIndexIndirect b) (.memory (.indexIndirect b)) (.fixed 6)
  | sbcZeropage (b : Byte) : ReadRow .sbc 0xE5 (.sbcZeropage b) (.memory (.zeropage b)) (.fixed 3)
  | sbcImmediate (b : Byte) : ReadRow .sbc 0xE9 (.sbcImmediate b) (.immediate b) (.fixed 2)
  | sbcAbsolute (w : Addr) : ReadRow .sbc 0xED (.sbcAbsolute w) (.memory (.absolute w)) (.fixed 4)
  | sbcIndirectIndex (b : Byte) : ReadRow .sbc 0xF1 (.sbcIndirectIndex b) (.memory (.indirectIndex b)) (.plusP 5)
  | sbcZeropageX (b : Byte) : ReadRow .sbc 0xF5 (.sbcZeropageX b) (.memory (.zeropageX b)) (.fixed 4)
  | sbcAbsoluteY (w : Addr) : ReadRow .sbc 0xF9 (.sbcAbsoluteY w) (.memory (.absoluteY w)) (.plusP 4)
  | sbcAbsoluteX (w : Addr) : ReadRow .sbc 0xFD (.sbcAbsoluteX w) (.memory (.absoluteX w)) (.plusP 4)
  | sbcImmediateEB (b : Byte) : ReadRow .sbc 0xEB (.sbcImmediateEB b) (.immediate b) (.fixed 2)

/-- The rows of the instructions that store a register: mnemonic, opcode byte, instruction, mode, cycles. -/
inductive WriteRow : Mnemonic → Byte → Instr → AddrMode → Nat → Prop where
  | staIndexIndirect (b : Byte) : WriteRow .sta 0x81 (.staIndexIndirect b) (.indexIndirect b) 6
  | staZeropage (b : Byte) : WriteRow .sta 0x85 (.staZeropage b) (.zeropage b) 3
  | staAbsolute (w : Addr) : WriteRow .sta 0x8D (.staAbsolute w) (.absolute w) 4
  | staIndirectIndex (b : Byte) : WriteRow .sta 0x91 (.staIndirectIndex b) (.indirectIndex b) 6
  | staZeropageX (b : Byte) : WriteRow .sta 0x95 (.staZeropageX b) (.zeropageX b) 4
  | staAbsoluteY (w : Addr) : WriteRow .sta 0x99 (.staAbsoluteY w) (.absoluteY w) 5
  | staAbsoluteX (w : Addr) : WriteRow .sta 0x9D (.staAbsoluteX w) (.absoluteX w) 5
  | stxZeropage (b : Byte) : WriteRow .stx 0x86 (.stxZeropage b) (.zeropage b) 3
  | stxAbsolute (w : Addr) : WriteRow .stx 0x8E (.stxAbsolute w) (.absolute w) 4
  | stxZeropageY (b : Byte) : WriteRow .stx 0x96 (.stxZeropageY b) (.zeropageY b) 4
  | styZeropage (b : Byte) : WriteRow .sty 0x84 (.styZeropage b) (.zeropage b) 3
  | styAbsolute (w : Addr) : WriteRow .sty 0x8C (.styAbsolute w) (.absolute w) 4
  | styZeropageX (b : Byte) : WriteRow .sty 0x94 (.styZeropageX b) (.zeropageX b) 4
  | saxIndexIndirect (b : Byte) : WriteRow .sax 0x83 (.saxIndexIndirect b) (.indexIndirect b) 6
  | saxZeropage (b : Byte) : WriteRow .sax 0x87 (.saxZeropage b) (.zeropage b) 3
  | saxAbsolute (w : Addr) : WriteRow .sax 0x8F (.saxAbsolute w) (.absolute w) 4
  | saxZeropageY (b : Byte) : WriteRow .sax 0x97 (.saxZeropageY b) (.zeropageY b) 4

/-- The rows of the instructions that read and write back a byte of memory: mnemonic, opcode byte, instruction, mode,
cycles. -/
inductive ModifyRow : Mnemonic → Byte → Instr → AddrMode → Nat → Prop where
  | aslZeropage (b : Byte) : ModifyRow .asl 0x06 (.aslZeropage b) (.zeropage b) 5
  | aslAbsolute (w : Addr) : ModifyRow .asl 0x0E (.aslAbsolute w) (.absolute w) 6
  | aslZeropageX (b : Byte) : ModifyRow .asl 0x16 (.aslZeropageX b) (.zeropageX b) 6
  | aslAbsoluteX (w : Addr) : ModifyRow .asl 0x1E (.aslAbsoluteX w) (.absoluteX w) 7
  | lsrZeropage (b : Byte) : ModifyRow .lsr 0x46 (.lsrZeropage b) (.zeropage b) 5
  | lsrAbsolute (w : Addr) : ModifyRow .lsr 0x4E (.lsrAbsolute w) (.absolute w) 6
  | lsrZeropageX (b : Byte) : ModifyRow .lsr 0x56 (.lsrZeropageX b) (.zeropageX b) 6
  | lsrAbsoluteX (w : Addr) : ModifyRow .lsr 0x5E (.lsrAbsoluteX w) (.absoluteX w) 7
  | rolZeropage (b : Byte) : ModifyRow .rol 0x26 (.rolZeropage b) (.zeropage b) 5
  | rolAbsolute (w : Addr) : ModifyRow .rol 0x2E (.rolAbsolute w) (.absolute w) 6
  | rolZeropageX (b : Byte) : ModifyRow .rol 0x36 (.rolZeropageX b) (.zeropageX b) 6
  | rolAbsoluteX (w : Addr) : ModifyRow .rol 0x3E (.rolAbsoluteX w) (.absoluteX w) 7
  | rorZeropage (b : Byte) : ModifyRow .ror 0x66 (.rorZeropage b) (.zeropage b) 5
  | rorAbsolute (w : Addr) : ModifyRow .ror 0x6E (.rorAbsolute w) (.absolute w) 6
  | rorZeropageX (b : Byte) : ModifyRow .ror 0x76 (.rorZeropageX b) (.zeropageX b) 6
  | rorAbsoluteX (w : Addr) : ModifyRow .ror 0x7E (.rorAbsoluteX w) (.absoluteX w) 7
  | incZeropage (b : Byte) : ModifyRow .inc 0xE6 (.incZeropage b) (.zeropage b) 5
  | incAbsolute (w : Addr) : ModifyRow .inc 0xEE (.incAbsolute w) (.absolute w) 6
  | incZeropageX (b : Byte) : ModifyRow .inc 0xF6 (.incZeropageX b) (.zeropageX b) 6
  | incAbsoluteX (w : Addr) : ModifyRow .inc 0xFE (.incAbsoluteX w) (.absoluteX w) 7
  | decZeropage (b : Byte) : ModifyRow .dec 0xC6 (.decZeropage b) (.zeropage b) 5
  | decAbsolute (w : Addr) : ModifyRow .dec 0xCE (.decAbsolute w) (.absolute w) 6
  | decZeropageX (b : Byte) : ModifyRow .dec 0xD6 (.decZeropageX b) (.zeropageX b) 6
  | decAbsoluteX (w : Addr) : ModifyRow .dec 0xDE (.decAbsoluteX w) (.absoluteX w) 7
  | sloIndexIndirect (b : Byte) : ModifyRow .slo 0x03 (.sloIndexIndirect b) (.indexIndirect b) 8
  | sloZeropage (b : Byte) : ModifyRow .slo 0x07 (.sloZeropage b) (.zeropage b) 5
  | sloAbsolute (w : Addr) : ModifyRow .slo 0x0F (.sloAbsolute w) (.absolute w) 6
  | sloIndirectIndex (b : Byte) : ModifyRow .slo 0x13 (.sloIndirectIndex b) (.indirectIndex b) 8
  | sloZeropageX (b : Byte) : ModifyRow .slo 0x17 (.sloZeropageX b) (.zeropageX b) 6
  | sloAbsoluteY (w : Addr) : ModifyRow .slo 0x1B (.sloAbsoluteY w) (.absoluteY w) 7
  | sloAbsoluteX (w : Addr) : ModifyRow .slo 0x1F (.sloAbsoluteX w) (.absoluteX w) 7
  | rlaIndexIndirect (b : Byte) : ModifyRow .rla 0x23 (.rlaIndexIndirect b) (.indexIndirect b) 8
  | rlaZeropage (b : Byte) : ModifyRow .rla 0x27 (.rlaZeropage b) (.zeropage b) 5
  | rlaAbsolute (w : Addr) : ModifyRow .rla 0x2F (.rlaAbsolute w) (.absolute w) 6
  | rlaIndirectIndex (b : Byte) : ModifyRow .rla 0x33 (.rlaIndirectIndex b) (.indirectIndex b) 8
  | rlaZeropageX (b : Byte) : ModifyRow .rla 0x37 (.rlaZeropageX b) (.zeropageX b) 6
  | rlaAbsoluteY (w : Addr) : ModifyRow .rla 0x3B (.rlaAbsoluteY w) (.absoluteY w) 7
  | rlaAbsoluteX (w : Addr) : ModifyRow .rla 0x3F (.rlaAbsoluteX w) (.absoluteX w) 7
  | sreIndexIndirect (b : Byte) : ModifyRow .sre 0x43 (.sreIndexIndirect b) (.indexIndirect b) 8
  | sreZeropage (b : Byte) : ModifyRow .sre 0x47 (.sreZeropage b) (.zeropage b) 5
  | sreAbsolute (w : Addr) : ModifyRow .sre 0x4F (.sreAbsolute w) (.absolute w) 6
  | sreIndirectIndex (b : Byte) : ModifyRow .sre 0x53 (.sreIndirectIndex b) (.indirectIndex b) 8
  | sreZeropageX (b : Byte) : ModifyRow .sre 0x57 (.sreZeropageX b) (.zeropageX b) 6
  | sreAbsoluteY (w : Addr) : ModifyRow .sre 0x5B (.sreAbsoluteY w) (.absoluteY w) 7
  | sreAbsoluteX (w : Addr) : ModifyRow .sre 0x5F (.sreAbsoluteX w) (.absoluteX w) 7
  | rraIndexIndirect (b : Byte) : ModifyRow .rra 0x63 (.rraIndexIndirect b) (.indexIndirect b) 8
  | rraZeropage (b : Byte) : ModifyRow .rra 0x67 (.rraZeropage b) (.zeropage b) 5
  | rraAbsolute (w : Addr) : ModifyRow .rra 0x6F (.rraAbsolute w) (.absolute w) 6
  | rraIndirectIndex (b : Byte) : ModifyRow .rra 0x73 (.rraIndirectIndex b) (.indirectIndex b) 8
  | rraZeropageX (b : Byte) : ModifyRow .rra 0x77 (.rraZeropageX b) (.zeropageX b) 6
  | rraAbsoluteY (w : Addr) : ModifyRow .rra 0x7B (.rraAbsoluteY w) (.absoluteY w) 7
  | rraAbsoluteX (w : Addr) : ModifyRow .rra 0x7F (.rraAbsoluteX w) (.absoluteX w) 7
  | dcpIndexIndirect (b : Byte) : ModifyRow .dcp 0xC3 (.dcpIndexIndirect b) (.indexIndirect b) 8
  | dcpZeropage (b : Byte) : ModifyRow .dcp 0xC7 (.dcpZeropage b) (.zeropage b) 5
  | dcpAbsolute (w : Addr) : ModifyRow .dcp 0xCF (.dcpAbsolute w) (.absolute w) 6
  | dcpIndirectIndex (b : Byte) : ModifyRow .dcp 0xD3 (.dcpIndirectIndex b) (.indirectIndex b) 8
  | dcpZeropageX (b : Byte) : ModifyRow .dcp 0xD7 (.dcpZeropageX b) (.zeropageX b) 6
  | dcpAbsoluteY (w : Addr) : ModifyRow .dcp 0xDB (.dcpAbsoluteY w) (.absoluteY w) 7
  | dcpAbsoluteX (w : Addr) : ModifyRow .dcp 0xDF (.dcpAbsoluteX w) (.absoluteX w) 7
  | iscIndexIndirect (b : Byte) : ModifyRow .isc 0xE3 (.iscIndexIndirect b) (.indexIndirect b) 8
  | iscZeropage (b : Byte) : ModifyRow .isc 0xE7 (.iscZeropage b) (.zeropage b) 5
  | iscAbsolute (w : Addr) : ModifyRow .isc 0xEF (.iscAbsolute w) (.absolute w) 6
  | iscIndirectIndex (b : Byte) : ModifyRow .isc 0xF3 (.iscIndirectIndex b) (.indirectIndex b) 8
  | iscZeropageX (b : Byte) : ModifyRow .isc 0xF7 (.iscZeropageX b) (.zeropageX b) 6
  | iscAbsoluteY (w : Addr) : ModifyRow .isc 0xFB (.iscAbsoluteY w) (.absoluteY w) 7
  | iscAbsoluteX (w : Addr) : ModifyRow .isc 0xFF (.iscAbsoluteX w) (.absoluteX w) 7

/-- The no-operations: opcode byte, the operand bytes after it, instruction, cycles. The absoluteX variants stand in
`NopIndexedRow`. -/
inductive NopRow : Byte → List Byte → Instr → Nat → Prop where
  | nop : NopRow 0xEA [] .nop 2
  | nop1A : NopRow 0x1A [] .nop1A 2
  | nop3A : NopRow 0x3A [] .nop3A 2
  | nop5A : NopRow 0x5A [] .nop5A 2
  | nop7A : NopRow 0x7A [] .nop7A 2
  | nopDA : NopRow 0xDA [] .nopDA 2
  | nopFA : NopRow 0xFA [] .nopFA 2
  | nop80 (b : Byte) : NopRow 0x80 [b] (.nop80 b) 2
  | nop82 (b : Byte) : NopRow 0x82 [b] (.nop82 b) 2
  | nop89 (b : Byte) : NopRow 0x89 [b] (.nop89 b) 2
  | nopC2 (b : Byte) : NopRow 0xC2 [b] (.nopC2 b) 2
  | nopE2 (b : Byte) : NopRow 0xE2 [b] (.nopE2 b) 2
  | nop04 (b : Byte) : NopRow 0x04 [b] (.nop04 b) 3
  | nop44 (b : Byte) : NopRow 0x44 [b] (.nop44 b) 3
  | nop64 (b : Byte) : NopRow 0x64 [b] (.nop64 b) 3
  | nop14 (b : Byte) : NopRow 0x14 [b] (.nop14 b) 4
  | nop34 (b : Byte) : NopRow 0x34 [b] (.nop34 b) 4
  | nop54 (b : Byte) : NopRow 0x54 [b] (.nop54 b) 4
  | nop74 (b : Byte) : NopRow 0x74 [b] (.nop74 b) 4
  | nopD4 (b : Byte) : NopRow 0xD4 [b] (.nopD4 b) 4
  | nopF4 (b : Byte) : NopRow 0xF4 [b] (.nopF4 b) 4
  | nop0C (w : Addr) : NopRow 0x0C [lo8 w, hi8 w] (.nop0C w) 4

/-- The absoluteX no-operations: opcode byte, base address, instruction. -/
inductive NopIndexedRow : Byte → Addr → Instr → Prop where
  | nop1C (w : Addr) : NopIndexedRow 0x1C w (.nop1C w)
  | nop3C (w : Addr) : NopIndexedRow 0x3C w (.nop3C w)
  | nop5C (w : Addr) : NopIndexedRow 0x5C w (.nop5C w)
  | nop7C (w : Addr) : NopIndexedRow 0x7C w (.nop7C w)
  | nopDC (w : Addr) : NopIndexedRow 0xDC w (.nopDC w)
  | nopFC (w : Addr) : NopIndexedRow 0xFC w (.nopFC w)

/-- The cycle column of the opcode map, one list per row of sixteen (30_encoding.md R136): base cost, and how many cycles
`+p` (1) or `+b` (2) can add; none for an unmapped slot. -/
def costRows : List (List (Option (Nat × Nat))) := [
  [some (7, 0), some (6, 0), none, some (8, 0), some (3, 0), some (3, 0), some (5, 0), some (5, 0),
   some (3, 0), some (2, 0), some (2, 0), none, some (4, 0), some (4, 0), some (6, 0), some (6, 0)],
  [some (2, 2), some (5, 1), none, some (8, 0), some (4, 0), some (4, 0), some (6, 0), some (6, 0),
   some (2, 0), some (4, 1), some (2, 0), some (7, 0), some (4, 1), some (4, 1), some (7, 0), some (7, 0)],
  [some (6, 0), some (6, 0), none, some (8, 0), some (3, 0), some (3, 0), some (5, 0), some (5, 0),
   some (4, 0), some (2, 0), some (2, 0), none, some (4, 0), some (4, 0), some (6, 0), some (6, 0)],
  [some (2, 2), some (5, 1), none, some (8, 0), some (4, 0), some (4, 0), some (6, 0), some (6, 0),
   some (2, 0), some (4, 1), some (2, 0), some (7, 0), some (4, 1), some (4, 1), some (7, 0), some (7, 0)],
  [some (6, 0), some (6, 0), none, some (8, 0), some (3, 0), some (3, 0), some (5, 0), some (5, 0),
   some (3, 0), some (2, 0), some (2, 0), none, some (3, 0), some (4, 0), some (6, 0), some (6, 0)],
  [some (2, 2), some (5, 1), none, some (8, 0), some (4, 0), some (4, 0), some (6, 0), some (6, 0),
   some (2, 0), some (4, 1), some (2, 0), some (7, 0), some (4, 1), some (4, 1), some (7, 0), some (7, 0)],
  [some (6, 0), some (6, 0), none, some (8, 0), some (3, 0), some (3, 0), some (5, 0), some (5, 0),
   some (4, 0), some (2, 0), some (2, 0), none, some (5, 0), some (4, 0), some (6, 0), some (6, 0)],
  [some (2, 2), some (5, 1), none, some (8, 0), some (4, 0), some (4, 0), some (6, 0), some (6, 0),
   some (2, 0), some (4, 1), some (2, 0), some (7, 0), some (4, 1), some (4, 1), some (7, 0), some (7, 0)],
  [some (2, 0), some (6, 0), some (2, 0), some (6, 0), some (3, 0), some (3, 0), some (3, 0), some (3, 0),
   some (2, 0), some (2, 0), some (2, 0), none, some (4, 0), some (4, 0), some (4, 0), some (4, 0)],
  [some (2, 2), some (6, 0), none, none, some (4, 0), some (4, 0), some (4, 0), some (4, 0),
   some (2, 0), some (5, 0), some (2, 0), none, none, some (5, 0), none, none],
  [some (2, 0), some (6, 0), some (2, 0), some (6, 0), some (3, 0), some (3, 0), some (3, 0), some (3, 0),
   some (2, 0), some (2, 0), some (2, 0), none, some (4, 0), some (4, 0), some (4, 0), some (4, 0)],
  [some (2, 2), some (5, 1), none, some (5, 1), some (4, 0), some (4, 0), some (4, 0), some (4, 0),
   some (2, 0), some (4, 1), some (2, 0), none, some (4, 1), some (4, 1), some (4, 1), some (4, 1)],
  [some (2, 0), some (6, 0), some (2, 0), some (8, 0), some (3, 0), some (3, 0), some (5, 0), some (5, 0),
   some (2, 0), some (2, 0), some (2, 0), none, some (4, 0), some (4, 0), some (6, 0), some (6, 0)],
  [some (2, 2), some (5, 1), none, some (8, 0), some (4, 0), some (4, 0), some (6, 0), some (6, 0),
   some (2, 0), some (4, 1), some (2, 0), some (7, 0), some (4, 1), some (4, 1), some (7, 0), some (7, 0)],
  [some (2, 0), some (6, 0), some (2, 0), some (8, 0), some (3, 0), some (3, 0), some (5, 0), some (5, 0),
   some (2, 0), some (2, 0), some (2, 0), some (2, 0), some (4, 0), some (4, 0), some (6, 0), some (6, 0)],
  [some (2, 2), some (5, 1), none, some (8, 0), some (4, 0), some (4, 0), some (6, 0), some (6, 0),
   some (2, 0), some (4, 1), some (2, 0), some (7, 0), some (4, 1), some (4, 1), some (7, 0), some (7, 0)]]

/-- Base cost and possible penalty of an opcode byte (30_encoding.md R136, R143). -/
def cost (op : Byte) : Option (Nat × Nat) := (costRows.getD (op.toNat / 16) []).getD (op.toNat % 16) none

/-- The operand bytes of a mode, in memory order (30_encoding.md R133). -/
def modeBytes : AddrMode → List Byte
  | .zeropage b | .zeropageX b | .zeropageY b | .indexIndirect b | .indirectIndex b => [b]
  | .absolute w | .absoluteX w | .absoluteY w => [lo8 w, hi8 w]

/-- The operand bytes of an operand source. -/
def sourceBytes : Source → List Byte
  | .immediate b => [b]
  | .memory m => modeBytes m

/-! ## Effects on the registers, in integers -/

/-- `SetNZ(v)` (10_state.md R28): `N` is bit 7 of `v`, `Z` is whether `v` is 0. -/
def nz (p : Flags) (v : Byte) : Flags := { p with n := decide (128 ≤ v.toNat), z := decide (v.toNat = 0) }

/-- `A <- m; SetNZ(A)`. -/
def toA (m : Byte) (q : Cpu) : Cpu := { q with a := m, p := nz q.p m }

/-- `X <- m; SetNZ(X)`. -/
def toX (m : Byte) (q : Cpu) : Cpu := { q with x := m, p := nz q.p m }

/-- `Y <- m; SetNZ(Y)`. -/
def toY (m : Byte) (q : Cpu) : Cpu := { q with y := m, p := nz q.p m }

/-- The flags of comparing `r` with `m` (43_compare_incdec_arith.md R230): from the unsigned subtraction. -/
def comparison (r m : Byte) (q : Cpu) : Cpu :=
  { q with p := { q.p with c := decide (m.toNat ≤ r.toNat), z := decide (r = m),
                           n := decide (128 ≤ (r.toNat + 256 - m.toNat) % 256) } }

/-- ADC (43_compare_incdec_arith.md R239): the unsigned sum, and the overflow of the true signed sum. -/
def adc (m : Byte) (q : Cpu) : Cpu :=
  let sum := q.a.toNat + m.toNat + q.p.c.toNat
  let signed : Int := q.a.toInt + m.toInt + q.p.c.toNat
  { q with a := BitVec.ofNat 8 sum,
           p := { nz q.p (BitVec.ofNat 8 sum) with c := decide (255 < sum),
                                                   v := decide (signed < -128 ∨ 127 < signed) } }

/-- SBC (43_compare_incdec_arith.md R240): `A - M - (1 - C)`, the carry that says no borrow, and the overflow of the
true signed difference. -/
def sbc (m : Byte) (q : Cpu) : Cpu :=
  let difference : Int := q.a.toNat - m.toNat - (1 - q.p.c.toNat)
  let signed : Int := q.a.toInt - m.toInt - (1 - q.p.c.toNat)
  { q with a := BitVec.ofInt 8 difference,
           p := { nz q.p (BitVec.ofInt 8 difference) with
                    c := decide (m.toNat + (1 - q.p.c.toNat) ≤ q.a.toNat),
                    v := decide (signed < -128 ∨ 127 < signed) } }

/-- A shift: the byte it makes and the registers after it; `C` is the bit shifted out. -/
def shift (r : Byte) (out : Bool) (q : Cpu) : Byte × Cpu := (r, { q with p := { nz q.p r with c := out } })

/-- ASL (42_logic_shift_bit.md R213). -/
def asl (m : Byte) (q : Cpu) : Byte × Cpu := shift (BitVec.ofNat 8 (2 * m.toNat)) (decide (128 ≤ m.toNat)) q

/-- LSR (42_logic_shift_bit.md R214). -/
def lsr (m : Byte) (q : Cpu) : Byte × Cpu := shift (BitVec.ofNat 8 (m.toNat / 2)) (decide (m.toNat % 2 = 1)) q

/-- ROL (42_logic_shift_bit.md R215): a rotation of nine bits, `C` and `m`. -/
def rol (m : Byte) (q : Cpu) : Byte × Cpu :=
  shift (BitVec.ofNat 8 (2 * m.toNat + q.p.c.toNat)) (decide (128 ≤ m.toNat)) q

/-- ROR (42_logic_shift_bit.md R216). -/
def ror (m : Byte) (q : Cpu) : Byte × Cpu :=
  shift (BitVec.ofNat 8 (m.toNat / 2 + 128 * q.p.c.toNat)) (decide (m.toNat % 2 = 1)) q

/-- INC (43_compare_incdec_arith.md R233). -/
def inc (m : Byte) (q : Cpu) : Byte × Cpu :=
  let r := BitVec.ofNat 8 (m.toNat + 1)
  (r, { q with p := nz q.p r })

/-- DEC (43_compare_incdec_arith.md R234). -/
def dec (m : Byte) (q : Cpu) : Byte × Cpu :=
  let r := BitVec.ofNat 8 (m.toNat + 255)
  (r, { q with p := nz q.p r })

/-- A second operation on the byte a first one wrote (45_unofficial.md R300). -/
def andThen (f : Byte → Cpu → Byte × Cpu) (g : Byte → Cpu → Cpu) (m : Byte) (q : Cpu) : Byte × Cpu :=
  ((f m q).1, g (f m q).1 (f m q).2)

/-! ## Reading and writing bytes -/

/-- The operand of a source: the immediate byte itself, with no access, or one bus read of the effective address; with
whether indexing crossed a page (40_addressing.md sections 2 and 3). -/
def operand (src : Source) (s : State) : Byte × Bool × State :=
  match src with
  | .immediate b => (b, false, s)
  | .memory m =>
    let e := (effAddr m s).1
    ((memRead e.addr s).1, e.crossed, (memRead e.addr s).2)

/-- A reading instruction: the operand is read, then `f` acts on the registers; the cost is the cycle column, and one
more where it has a `+p` and indexing crossed a page (30_encoding.md R143). -/
def readResult (src : Source) (c : Cost) (f : Byte → Cpu → Cpu) (s : State) : State :=
  let o := operand src s
  { o.2.2 with
    cpu := f o.1 s.cpu,
    cycles := match c with
      | .fixed n => n
      | .plusP n => if o.2.1 then n + 1 else n }

/-- A write of `v` to `a` that the spec gives a meaning: not the DMA of a page 0x20 to 0x7F (46_ppu_ports.md R352). -/
def Storable (a : Addr) (v : Byte) : Prop := ¬(a = 0x4014 ∧ 0x20 ≤ v.toNat ∧ v.toNat ≤ 0x7F)

/-- The machine after a write of `v` to `a`: the copy to OAM at the DMA trigger, else the store of the routing table. -/
def stored (a : Addr) (v : Byte) (s : State) : State :=
  if a = 0x4014 then { s with ppu := { s.ppu with oam := dmaCopy s v }, dmaCycles := s.dmaCycles + 513 }
  else busStore a v s

/-- A storing instruction: one write of `v` to the effective address and nothing else; the DMA of a page to which the
spec gives no meaning is refused. -/
def Stores (i : Instr) (m : AddrMode) (n : Nat) (v : Byte) (s : State) : Prop :=
  let a := (effAddr m s).1.addr
  (Storable a v → exec i s = .next { stored a v s with cycles := n }) ∧
  (¬ Storable a v → exec i s = .refused (.dmaSourceUnspecified v))

/-- A read-modify-write instruction: one read of the effective address, `f`, one write of the byte `f` makes to the same
address; the DMA of a page to which the spec gives no meaning is refused. -/
def Modifies (i : Instr) (m : AddrMode) (n : Nat) (f : Byte → Cpu → Byte × Cpu) (s : State) : Prop :=
  let a := (effAddr m s).1.addr
  let r := memRead a s
  let w := f r.1 s.cpu
  (Storable a w.1 → exec i s = .next { stored a w.1 r.2 with cpu := w.2, cycles := n }) ∧
  (¬ Storable a w.1 → exec i s = .refused (.dmaSourceUnspecified w.1))

/-- The byte an instruction of a storing or modifying mnemonic writes, where `m` is the byte it reads (the stores read
none): 41_load_store_transfer.md, Stores; 42_logic_shift_bit.md, Shifts and rotates; 43_compare_incdec_arith.md,
Increments and decrements; 45_unofficial.md R300 to R308. -/
def writtenByte : Mnemonic → Byte → Cpu → Byte
  | .sta, _, q => q.a
  | .stx, _, q => q.x
  | .sty, _, q => q.y
  | .sax, _, q => q.a &&& q.x
  | .asl, m, q | .slo, m, q => (asl m q).1
  | .lsr, m, q | .sre, m, q => (lsr m q).1
  | .rol, m, q | .rla, m, q => (rol m q).1
  | .ror, m, q | .rra, m, q => (ror m q).1
  | .inc, m, q | .isc, m, q => (inc m q).1
  | .dec, m, q | .dcp, m, q => (dec m q).1
  | _, m, _ => m

/-- The instruction is a storing or modifying one and writes `v` to `a`. -/
def Writes (i : Instr) (s : State) (a : Addr) (v : Byte) : Prop :=
  ∃ (k : Mnemonic) (op : Byte) (m : AddrMode) (n : Nat),
    (WriteRow k op i m n ∨ ModifyRow k op i m n) ∧ (effAddr m s).1.addr = a ∧
    v = writtenByte k (memRead a s).1 s.cpu

/-- The next CPU step is an instruction that writes to the OAM-DMA trigger (46_ppu_ports.md R352). -/
def TriggersCopy (s : State) : Prop :=
  poll s = .instruction ∧ ∃ page, Writes (fetchInstr s).1 (fetchInstr s).2 0x4014 page

/-- Two addresses of the same RAM cell (20_memory.md R84). -/
def SameCell (a b : Addr) : Prop := a.toNat < 0x2000 ∧ b.toNat < 0x2000 ∧ a.toNat % 0x800 = b.toNat % 0x800

/-- The bytes `t` reads without the bus are those of `s`, but for the one stored at `a`. -/
def BytesAfterStore (a : Addr) (v : Byte) (s t : State) : Prop :=
  ∀ b, (SameCell a b → peek t b = some v) ∧ (¬ SameCell a b → peek t b = peek s b)

/-- Every byte of RAM, ROM, the video space and OAM reads in `t` as in `s`. -/
def SameBytes (s t : State) : Prop :=
  (∀ b, peek t b = peek s b) ∧
  (∀ b, vramRead t.cart.mirroring t.ppu b = vramRead s.cart.mirroring s.ppu b) ∧
  (∀ k, t.ppu.oamByte k = s.ppu.oamByte k)

/-- The address the stack pointer `p` designates (10_state.md R23). -/
def stack (p : Byte) : Addr := BitVec.ofNat 16 (256 + p.toNat)

/-- The byte at an address of page 1, with the stack pointer `p`. -/
def stackByte (s : State) (p : Byte) : Byte := (memRead (stack p) s).1

/-- The flags in a status byte (10_state.md R26, R27). -/
def flagsOf (b : Byte) : Flags :=
  { n := b.getLsbD 7, v := b.getLsbD 6, b := b.getLsbD 4, d := b.getLsbD 3, i := b.getLsbD 2, z := b.getLsbD 1,
    c := b.getLsbD 0 }

/-- The status byte with bit 4 chosen and bit 5 set (10_state.md R26). -/
def statusByte (p : Flags) (b4 : Bool) : Byte :=
  BitVec.ofNat 8 (128 * p.n.toNat + 64 * p.v.toNat + 32 + 16 * b4.toNat + 8 * p.d.toNat + 4 * p.i.toNat +
    2 * p.z.toNat + p.c.toNat)

/-- Successive bus reads from an address on, with their side effects. -/
def readBytes : Nat → Addr → State → List Byte × State
  | 0, _, s => ([], s)
  | n + 1, a, s =>
    let r := memRead a s
    let rest := readBytes n (a + 1) r.2
    (r.1 :: rest.1, rest.2)

/-- The condition of a branch (44_stack_control_flags.md R270 to R277). -/
def condition : Mnemonic → Flags → Bool
  | .bpl, p => !p.n
  | .bmi, p => p.n
  | .bvc, p => !p.v
  | .bvs, p => p.v
  | .bcc, p => !p.c
  | .bcs, p => p.c
  | .bne, p => !p.z
  | .beq, p => p.z
  | _, _ => false

/-- Two addresses below 0x4000 of the same cell of the video space (20_memory.md R101 to R104): a pattern byte is its own
cell; 0x2000 to 0x3EFF fold onto two tables of 1024 bytes by the mirroring; the palette repeats every 32 bytes, with
0x10, 0x14, 0x18, 0x1C on 0x00, 0x04, 0x08, 0x0C. -/
def SameVideoCell (mir : Mirroring) (a b : Nat) : Prop :=
  (a < 0x2000 ∧ b = a) ∨
  (0x2000 ≤ a ∧ a < 0x3F00 ∧ 0x2000 ≤ b ∧ b < 0x3F00 ∧ a % 0x400 = b % 0x400 ∧
    (mir = .vertical → a / 0x400 % 2 = b / 0x400 % 2) ∧ (mir = .horizontal → a / 0x800 % 2 = b / 0x800 % 2)) ∨
  (0x3F00 ≤ a ∧ 0x3F00 ≤ b ∧ (a % 32 = b % 32 ∨ (a % 4 = 0 ∧ b % 4 = 0 ∧ a % 16 = b % 16)))

/-- Bit `k` of a byte, as a number. -/
def bit (b : Byte) (k : Nat) : Nat := b.toNat / 2 ^ k % 2

/-- The colour of a tile's pixel (47_ppu_timing_render.md R386), from two bit-planes of 8 bytes each: table and tile
select 16 bytes, plane 1 lies 8 bytes after plane 0, column 0 is bit 7. -/
def tileColour (mir : Mirroring) (u : Ppu) (table tile row col : Nat) : Nat :=
  let base := table * 0x1000 + tile * 16
  bit (vramRead mir u (base + row)) (7 - col) + 2 * bit (vramRead mir u (base + row + 8)) (7 - col)

/-- Byte `k` of OAM entry `i`: 0 is Y, 1 the tile, 2 the attributes, 3 X (10_state.md R43). -/
def sprite (u : Ppu) (i k : Nat) : Nat := (u.oamByte (4 * i + k)).toNat

/-- OAM entry `i` covers scanline `y`: it appears on the 8 scanlines after its Y byte (47_ppu_timing_render.md R391,
R396). -/
abbrev covers (u : Ppu) (y i : Nat) : Prop := sprite u i 0 + 1 ≤ y ∧ y ≤ sprite u i 0 + 8

/-- How many OAM entries cover scanline `y`. -/
def covering (u : Ppu) (y : Nat) : Nat :=
  ((List.range 64).filter fun i => decide (covers u y i)).length

/-- `n` turns of `System.step` (48_system_driver.md R420), with the levels that the host presents on `irq_line` before
each (10_state.md R33). -/
def turns : Nat → List Bool → State → Result
  | 0, _, s => .next s
  | n + 1, levels, s => Result.andThen (step (presentIrq levels s)) fun t => turns n levels.tail t

/-- The dots that the CPU steps of these turns owe (48_system_driver.md R421): three for each cycle and each DMA
cycle. -/
def turnsOwe : Nat → List Bool → State → Nat
  | 0, _, _ => 0
  | n + 1, levels, s =>
    match cpuStep (beginStep (presentIrq levels s)) with
    | .next c => 3 * (c.cycles + c.dmaCycles) + turnsOwe n levels.tail (endStep c)
    | _ => 0

/-- The branches: mnemonic, opcode byte, instruction (44_stack_control_flags.md R270 to R277). -/
inductive BranchRow : Mnemonic → Byte → Byte → Instr → Prop where
  | bpl (d : Byte) : BranchRow .bpl 0x10 d (.bpl d)
  | bmi (d : Byte) : BranchRow .bmi 0x30 d (.bmi d)
  | bvc (d : Byte) : BranchRow .bvc 0x50 d (.bvc d)
  | bvs (d : Byte) : BranchRow .bvs 0x70 d (.bvs d)
  | bcc (d : Byte) : BranchRow .bcc 0x90 d (.bcc d)
  | bcs (d : Byte) : BranchRow .bcs 0xB0 d (.bcs d)
  | bne (d : Byte) : BranchRow .bne 0xD0 d (.bne d)
  | beq (d : Byte) : BranchRow .beq 0xF0 d (.beq d)

end Sys2Proof.Spec

open Sys2Proof Sys2Proof.Machine

/-! ## Encoding -/

/-- 30_encoding.md sections 1 to 4 (R130 to R138): decoding an encoded well-formed instruction gives it back and
leaves the bytes after it; and whatever the decoder reads is well-formed and was encoded by exactly those bytes. -/
def Obligations.DecodeAndEncodeAgree : Prop :=
  (∀ (i : Instr) (rest : List Byte), i.wellFormed = true → decode (encode i ++ rest) = .ok (i, rest)) ∧
  (∀ (bytes : List Byte) (i : Instr) (rest : List Byte), decode bytes = .ok (i, rest) →
    i.wellFormed = true ∧ bytes = encode i ++ rest)

/-- 30_encoding.md section 5, the examples of each mode, and one unmapped byte (section 4). -/
def Obligations.ExampleWordsDecode : Prop :=
  decode [0x18] = .ok (.clc, []) ∧
  decode [0x0A] = .ok (.aslAccumulator, []) ∧
  decode [0xA9, 0x10] = .ok (.ldaImmediate 0x10, []) ∧
  decode [0xA5, 0x10] = .ok (.ldaZeropage 0x10, []) ∧
  decode [0xB5, 0x10] = .ok (.ldaZeropageX 0x10, []) ∧
  decode [0xB6, 0x10] = .ok (.ldxZeropageY 0x10, []) ∧
  decode [0xAD, 0x34, 0x12] = .ok (.ldaAbsolute 0x1234, []) ∧
  decode [0xBD, 0x34, 0x12] = .ok (.ldaAbsoluteX 0x1234, []) ∧
  decode [0xB9, 0x34, 0x12] = .ok (.ldaAbsoluteY 0x1234, []) ∧
  decode [0x6C, 0x34, 0x12] = .ok (.jmpIndirect 0x1234, []) ∧
  decode [0xA1, 0x10] = .ok (.ldaIndexIndirect 0x10, []) ∧
  decode [0xB1, 0x10] = .ok (.ldaIndirectIndex 0x10, []) ∧
  decode [0xD0, 0xFB] = .ok (.bne 0xFB, []) ∧
  decode [0x02] = .ok (.unmapped 0x02, [])

/-! ## The step -/

/-- 40_addressing.md section 1 (the step, the instruction-byte fetch): when no interrupt is taken and the bytes that
the bus gives from the program counter on decode to `i`, the step is `exec i` in the state after those reads, with the
program counter after the last of them, inside what `System.step` adds: the dots owed from before (`beginStep`) and
the dots of this step (`endStep`). -/
def Obligations.StepRunsDecodedInstruction : Prop :=
  ∀ (s t : State) (bytes : List Byte) (i : Instr),
    s.cpu.halted = none → poll (beginStep s) = .instruction →
    Spec.readBytes bytes.length s.cpu.pc (beginStep s) = (bytes, t) → decode bytes = .ok (i, []) →
    step s = Result.andThen (exec i (t.setPc (s.cpu.pc + BitVec.ofNat 16 bytes.length))) fun u => .next (endStep u)

/-- The same for code in RAM or ROM, where the encoding of `i` stands at the program counter (40_addressing.md
section 1, 20_memory.md section 4 on instruction-fetch coherence): the reads change nothing. -/
def Obligations.StepRunsStoredCode : Prop :=
  ∀ (s : State) (i : Instr),
    s.cpu.halted = none → poll (beginStep s) = .instruction → i.wellFormed = true →
    (∀ (k : Nat) (h : k < (encode i).length), peek s (s.cpu.pc + BitVec.ofNat 16 k) = some (encode i)[k]) →
    step s = Result.andThen (exec i ((beginStep s).setPc (s.cpu.pc + BitVec.ofNat 16 (encode i).length)))
      fun u => .next (endStep u)

/-- 48_system_driver.md R420: a turn of the driver is the dots owed from before, one CPU step, and three dots for each
cycle it consumed, the DMA's included; a CPU step that does not complete runs no dots. -/
def Obligations.StepIsCpuStepThenDots : Prop :=
  ∀ s : State, s.cpu.halted = none →
    step s = Result.andThen (cpuStep { runDots s.dotDebt s with dotDebt := 0, dmaCycles := 0 }) fun c =>
      .next (runDots (3 * (c.cycles + c.dmaCycles)) { c with dmaCycles := 0 })

/-- 60_exceptions.md R461: a halted machine reports the recorded error and changes no state, pending interrupts or not;
`reset`, and `load_rom` of a good image, set `halted` to none. -/
def Obligations.HaltedMachineReportsAgain : Prop :=
  ∀ (s : State) (e : DecodeError), s.cpu.halted = some e →
    cpuStep s = .fault (.decodeError e.addr e.opcode s) ∧
    step s = .fault (.decodeError e.addr e.opcode s) ∧
    (∀ levels, runFrame levels s = .fault (.decodeError e.addr e.opcode s)) ∧
    (∀ init, (hostReset init s).cpu.halted = none) ∧
    (∀ bytes init cart, parseImage bytes = .ok cart →
      ∃ t, Session.loadRom bytes init (some s) = (some t, .ok ()) ∧ t.cpu.halted = none)

/-- 60_exceptions.md section 5 (the decode error): each of the 25 unmapped bytes stops the machine at the address it
was fetched from; the fetch has moved the program counter and `halted` records the error, and nothing else changes. -/
def Obligations.UnmappedOpcodeStops : Prop :=
  (∀ (op : Byte) (s : State), op ∈ unmappedOpcodes →
    exec (.unmapped op) s = .fault (.decodeError (s.cpu.pc - 1) op
      { s with cpu := { s.cpu with halted := some { addr := s.cpu.pc - 1, opcode := op } } })) ∧
  (∀ s : State, s.cpu.halted = none → poll (beginStep s) = .instruction →
    let r := memRead s.cpu.pc (beginStep s)
    r.1 ∈ unmappedOpcodes →
    step s = .fault (.decodeError s.cpu.pc r.1
      { r.2 with cpu := { r.2.cpu with pc := s.cpu.pc + 1, halted := some { addr := s.cpu.pc, opcode := r.1 } } }))

/-- 30_encoding.md section 4 (the testable property of the map) with 46_ppu_ports.md R352: a mapped instruction
completes, and its count is the base cost, plus at most the penalty its cycle column allows. The one exception is a
write of a page 0x20 to 0x7F to the DMA trigger, which the spec has the model refuse (log entry 10). -/
def Obligations.MappedInstructionsComplete : Prop :=
  ∀ (i : Instr) (s : State), i.mapped = true →
    ∃ (op : Byte) (operands : List Byte) (base penalty : Nat),
      encode i = op :: operands ∧ Spec.cost op = some (base, penalty) ∧
      ((∀ page : Byte, Spec.Writes i s 0x4014 page → page.toNat < 0x20 ∨ 0x7F < page.toNat) →
        ∃ t, exec i s = .next t ∧ base ≤ t.cycles ∧ t.cycles ≤ base + penalty) ∧
      (∀ page : Byte, Spec.Writes i s 0x4014 page → 0x20 ≤ page.toNat → page.toNat ≤ 0x7F →
        exec i s = .refused (.dmaSourceUnspecified page))

/-! ## Invariants -/

/-- The reset state satisfies the invariant `State.wf` (10_state.md section 7). -/
def Obligations.ResetStateIsWellFormed : Prop := State.reset.wf = true

/-- Every step keeps the invariant: all memories in canonical form and inside their sizes, the four aliased palette
cells unused, the picture unit at one of the 341 by 262 positions (10_state.md sections 3 and 4); also in the state a
decode error leaves. -/
def Obligations.StepKeepsWellFormed : Prop :=
  ∀ s t : State, s.wf = true →
    (step s = .next t → t.wf = true) ∧
    (∀ a op, step s = .fault (.decodeError a op t) → t.wf = true)

/-- 10_state.md sections 3, 5 and 6: no step changes the cartridge, the parameters or the published frame; no dots and no
DMA cycles are left owing; a completed step leaves the machine running. That a step leaves the interrupt input as it
is, is the choice of log entry 3 (the host sets it between steps), and that the output stream grows at its front is
that of log entry 5. -/
def Obligations.StepKeepsConstants : Prop :=
  ∀ s t : State, step s = .next t →
    t.cart = s.cart ∧ t.config = s.config ∧ t.irqLine = s.irqLine ∧ t.published = s.published ∧
    (∃ l, t.extWrites = l ++ s.extWrites) ∧ t.dotDebt = 0 ∧ t.dmaCycles = 0 ∧ t.cpu.halted = none

/-- 47_ppu_timing_render.md section 1, 48_system_driver.md section 1 and 46_ppu_ports.md R352: `k` dots move the position
on by `k` round a frame of 89342; a step moves it by what was owed and three dots for each cycle, with 513 cycles more
exactly when its instruction wrote to the DMA trigger. -/
def Obligations.StepAdvancesThreeDotsPerCycle : Prop :=
  (∀ (k : Nat) (s : State), s.wf = true →
    (runDots k s).ppu.position = (s.ppu.position + k) % 89342 ∧
    (runDots 89342 s).ppu.position = s.ppu.position) ∧
  (∀ s t : State, s.wf = true → step s = .next t →
    ∃ c, cpuStep (beginStep s) = .next c ∧ t.cycles = c.cycles ∧
      t.ppu.position = (s.ppu.position + s.dotDebt + 3 * (c.cycles + c.dmaCycles)) % 89342 ∧
      (Spec.TriggersCopy (beginStep s) → c.dmaCycles = 513) ∧
      (¬ Spec.TriggersCopy (beginStep s) → c.dmaCycles = 0))

/-- 10_state.md section 2, 20_memory.md section 4 and 60_exceptions.md section 2: whatever the instruction, while it
executes no dot elapses and no interrupt is raised or withdrawn: the NMI latch, the halt, the position, the pixel
buffer, the two sprite flags and the driver's debt are unchanged, and `vblank` is not set. -/
def Obligations.InstructionsLeaveTimeAlone : Prop :=
  ∀ (i : Instr) (s t : State), exec i s = .next t →
    t.cpu.nmiPending = s.cpu.nmiPending ∧ t.cpu.halted = s.cpu.halted ∧
    t.ppu.scanline = s.ppu.scanline ∧ t.ppu.dot = s.ppu.dot ∧ t.ppu.frame = s.ppu.frame ∧
    t.ppu.sprite0Hit = s.ppu.sprite0Hit ∧ t.ppu.spriteOverflow = s.ppu.spriteOverflow ∧
    (t.ppu.vblank = true → s.ppu.vblank = true) ∧
    t.cart = s.cart ∧ t.config = s.config ∧ t.irqLine = s.irqLine ∧ t.published = s.published ∧
    t.dotDebt = s.dotDebt

/-- 10_state.md section 1 (the registers, the table of flags): a register or flag changes only by the instructions the
spec names as its writers. -/
def Obligations.OnlyNamedWritersChangeARegister : Prop :=
  ∀ (i : Instr) (k : Spec.Mnemonic) (s t : State), Spec.mnemonic i = some k → exec i s = .next t →
    (k ∉ [.lda, .lax, .pla, .txa, .tya, .and, .ora, .eor, .adc, .sbc, .asl, .lsr, .rol, .ror, .slo, .rla, .sre, .rra,
          .isc] → t.cpu.a = s.cpu.a) ∧
    (k ∉ [.ldx, .lax, .tax, .tsx, .inx, .dex] → t.cpu.x = s.cpu.x) ∧
    (k ∉ [.ldy, .tay, .iny, .dey] → t.cpu.y = s.cpu.y) ∧
    (k ∉ [.txs, .pha, .php, .pla, .plp, .jsr, .rts, .rti, .brk] → t.cpu.s = s.cpu.s) ∧
    (k ∉ [.bpl, .bmi, .bvc, .bvs, .bcc, .bcs, .bne, .beq, .jmp, .jsr, .rts, .rti, .brk] → t.cpu.pc = s.cpu.pc) ∧
    (k ∉ [.lda, .ldx, .ldy, .lax, .tax, .tay, .txa, .tya, .tsx, .pla, .and, .ora, .eor, .asl, .lsr, .rol, .ror, .inc,
          .dec, .inx, .iny, .dex, .dey, .adc, .sbc, .slo, .rla, .sre, .rra, .isc, .cmp, .cpx, .cpy, .dcp, .bit, .plp,
          .rti] → t.cpu.p.n = s.cpu.p.n ∧ t.cpu.p.z = s.cpu.p.z) ∧
    (k ∉ [.adc, .sbc, .rra, .isc, .bit, .clv, .plp, .rti] → t.cpu.p.v = s.cpu.p.v) ∧
    (k ∉ [.brk, .plp, .rti] → t.cpu.p.b = s.cpu.p.b) ∧
    (k ∉ [.sed, .cld, .plp, .rti] → t.cpu.p.d = s.cpu.p.d) ∧
    (k ∉ [.sei, .cli, .plp, .rti, .brk] → t.cpu.p.i = s.cpu.p.i) ∧
    (k ∉ [.adc, .sbc, .rra, .isc, .asl, .lsr, .rol, .ror, .slo, .rla, .sre, .cmp, .cpx, .cpy, .dcp, .sec, .clc, .plp,
          .rti] → t.cpu.p.c = s.cpu.p.c)

/-! ## Reset -/

/-- 10_state.md section 7 (the reset values) and 48_system_driver.md section 2 (`reset`): whatever the machine was,
`reset` gives these values, with the memories `MEM_INIT` gives, the pattern data of the cartridge, and the program
counter at the word in the reset vector. The values other than the program counter's are decisions of the spec. -/
def Obligations.ResetGivesTheResetValues : Prop :=
  ∀ (s : State) (init : MemInit),
    let t := hostReset init s
    t.cpu = { a := 0, x := 0, y := 0, s := 0xFD,
              pc := word (memRead 0xFFFD t).1 (memRead 0xFFFC t).1,
              p := { n := false, v := false, b := false, d := false, i := true, z := false, c := false },
              nmiPending := false, halted := none } ∧
    t.ppu.ctrl = 0 ∧ t.ppu.mask = 0 ∧ t.ppu.v = 0 ∧ t.ppu.t = 0 ∧ t.ppu.x = 0 ∧ t.ppu.w = false ∧
    t.ppu.vblank = false ∧ t.ppu.sprite0Hit = false ∧ t.ppu.spriteOverflow = false ∧ t.ppu.oamAddr = 0 ∧
    t.ppu.readBuffer = 0 ∧ t.ppu.latch = 0 ∧ t.ppu.scanline = 0 ∧ t.ppu.dot = 0 ∧
    t.ram = init.ram ∧ t.ppu.oam = init.oam ∧ t.ppu.ntram = init.ntram ∧ t.ppu.palette = init.palette ∧
    t.ppu.frame = init.frame ∧ t.ppu.pattern = s.cart.chr.getD init.pattern ∧
    t.cart = s.cart ∧ t.config = s.config ∧ t.dotDebt = 0 ∧ t.dmaCycles = 0

/-! ## Addressing modes -/

/-- 40_addressing.md section 2 (the modes that name a byte of memory, R167 to R172, R174, R175): the effective address
of every mode, in integers; the page-crossing bit of the indexed modes; and that resolving a mode changes nothing. -/
def Obligations.EffectiveAddresses : Prop :=
  ∀ s : State,
    let x := s.cpu.x.toNat
    let y := s.cpu.y.toNat
    let zp : Nat → Nat := fun k => (Memory.get s.ram (k % 256)).toNat
    let pointer : Nat → Nat := fun k => zp k + 256 * zp (k + 1)
    (∀ m, (effAddr m s).2 = s) ∧
    (∀ b : Byte, (effAddr (.zeropage b) s).1.addr.toNat = b.toNat ∧ (effAddr (.zeropage b) s).1.crossed = false) ∧
    (∀ b : Byte, (effAddr (.zeropageX b) s).1.addr.toNat = (b.toNat + x) % 256 ∧
      (effAddr (.zeropageX b) s).1.crossed = false) ∧
    (∀ b : Byte, (effAddr (.zeropageY b) s).1.addr.toNat = (b.toNat + y) % 256 ∧
      (effAddr (.zeropageY b) s).1.crossed = false) ∧
    (∀ w : Addr, (effAddr (.absolute w) s).1.addr = w ∧ (effAddr (.absolute w) s).1.crossed = false) ∧
    (∀ w : Addr, (effAddr (.absoluteX w) s).1.addr.toNat = (w.toNat + x) % 65536 ∧
      ((effAddr (.absoluteX w) s).1.crossed = true ↔ 255 < w.toNat % 256 + x)) ∧
    (∀ w : Addr, (effAddr (.absoluteY w) s).1.addr.toNat = (w.toNat + y) % 65536 ∧
      ((effAddr (.absoluteY w) s).1.crossed = true ↔ 255 < w.toNat % 256 + y)) ∧
    (∀ b : Byte, (effAddr (.indexIndirect b) s).1.addr.toNat = pointer (b.toNat + x) ∧
      (effAddr (.indexIndirect b) s).1.crossed = false) ∧
    (∀ b : Byte, (effAddr (.indirectIndex b) s).1.addr.toNat = (pointer b.toNat + y) % 65536 ∧
      ((effAddr (.indirectIndex b) s).1.crossed = true ↔ 255 < pointer b.toNat % 256 + y))

/-! ## Reading instructions -/

/-- 41_load_store_transfer.md R180, R181, R182 and 45_unofficial.md R306: LDA, LDX, LDY and LAX load the operand and set
`N` and `Z` from it; nothing else changes but what the operand read does. -/
def Obligations.LoadsLoad : Prop :=
  ∀ (k : Spec.Mnemonic) (op : Byte) (i : Instr) (src : Source) (c : Cost) (s : State), Spec.ReadRow k op i src c →
    (k = .lda ∨ k = .ldx ∨ k = .ldy ∨ k = .lax → encode i = op :: Spec.sourceBytes src) ∧
    (k = .lda → exec i s = .next (Spec.readResult src c Spec.toA s)) ∧
    (k = .ldx → exec i s = .next (Spec.readResult src c Spec.toX s)) ∧
    (k = .ldy → exec i s = .next (Spec.readResult src c Spec.toY s)) ∧
    (k = .lax → exec i s =
      .next (Spec.readResult src c (fun m q => { q with a := m, x := m, p := Spec.nz q.p m }) s))

/-- 42_logic_shift_bit.md R210, R211, R212, R217: AND, ORA and EOR combine the operand with `A` and set `N` and `Z` from
the result; BIT takes `Z` from the AND of `A` and the operand, `N` and `V` from bits 7 and 6 of the operand, and changes
nothing else. -/
def Obligations.LogicCombinesWithA : Prop :=
  ∀ (k : Spec.Mnemonic) (op : Byte) (i : Instr) (src : Source) (c : Cost) (s : State), Spec.ReadRow k op i src c →
    (k = .and ∨ k = .ora ∨ k = .eor ∨ k = .bit → encode i = op :: Spec.sourceBytes src) ∧
    (k = .and → exec i s = .next (Spec.readResult src c (fun m q => Spec.toA (q.a &&& m) q) s)) ∧
    (k = .ora → exec i s = .next (Spec.readResult src c (fun m q => Spec.toA (q.a ||| m) q) s)) ∧
    (k = .eor → exec i s = .next (Spec.readResult src c (fun m q => Spec.toA (q.a ^^^ m) q) s)) ∧
    (k = .bit → exec i s = .next (Spec.readResult src c (fun m q =>
      { q with p := { q.p with z := decide ((q.a &&& m).toNat = 0), n := decide (128 ≤ m.toNat),
                               v := decide (64 ≤ m.toNat % 128) } }) s))

/-- 43_compare_incdec_arith.md R230, R231, R232: CMP, CPX and CPY set `C`, `Z`, `N` from the unsigned subtraction and
change nothing else. -/
def Obligations.ComparesSetFlags : Prop :=
  ∀ (k : Spec.Mnemonic) (op : Byte) (i : Instr) (src : Source) (c : Cost) (s : State), Spec.ReadRow k op i src c →
    (k = .cmp ∨ k = .cpx ∨ k = .cpy → encode i = op :: Spec.sourceBytes src) ∧
    (k = .cmp → exec i s = .next (Spec.readResult src c (fun m q => Spec.comparison q.a m q) s)) ∧
    (k = .cpx → exec i s = .next (Spec.readResult src c (fun m q => Spec.comparison q.x m q) s)) ∧
    (k = .cpy → exec i s = .next (Spec.readResult src c (fun m q => Spec.comparison q.y m q) s))

/-- 43_compare_incdec_arith.md R239: ADC, with `C` the unsigned carry and `V` set exactly when the true signed sum
leaves -128 to 127; whatever `D` holds. -/
def Obligations.AdcAdds : Prop :=
  ∀ (op : Byte) (i : Instr) (src : Source) (c : Cost) (s : State), Spec.ReadRow .adc op i src c →
    encode i = op :: Spec.sourceBytes src ∧ exec i s = .next (Spec.readResult src c Spec.adc s)

/-- 43_compare_incdec_arith.md R240 and 45_unofficial.md R315: SBC, in every form and at 0xEB too; `C` says no borrow
and `V` that the true signed difference leaves -128 to 127. -/
def Obligations.SbcSubtracts : Prop :=
  ∀ (op : Byte) (i : Instr) (src : Source) (c : Cost) (s : State), Spec.ReadRow .sbc op i src c →
    encode i = op :: Spec.sourceBytes src ∧ exec i s = .next (Spec.readResult src c Spec.sbc s)

/-- 43_compare_incdec_arith.md R243: SBC of what ADC added, with the carry complemented between them, gives `A` back;
and the overflow after ADC is that of the true signed sum. -/
def Obligations.AdcSbcRoundTrip : Prop :=
  ∀ (b : Byte) (s : State), ∃ t u,
    exec (.adcImmediate b) s = .next t ∧
    exec (.sbcImmediate b) (t.setP { t.cpu.p with c := !s.cpu.p.c }) = .next u ∧
    u.cpu.a = s.cpu.a ∧
    (t.cpu.p.v = true ↔
      s.cpu.a.toInt + b.toInt + s.cpu.p.c.toNat < -128 ∨ 127 < s.cpu.a.toInt + b.toInt + s.cpu.p.c.toNat)

/-- The frame of the reading instructions (40_addressing.md section 3, 20_memory.md section 1): no byte of RAM, ROM,
the video space or OAM changes, nothing is written out, and of the picture unit only what a port read touches; with an
immediate operand or one in RAM or ROM the picture unit does not change at all. -/
def Obligations.ReadingInstructionsFrame : Prop :=
  ∀ (k : Spec.Mnemonic) (op : Byte) (i : Instr) (src : Source) (c : Cost) (s t : State),
    Spec.ReadRow k op i src c → exec i s = .next t →
    Spec.SameBytes s t ∧ t.ram = s.ram ∧ t.cart = s.cart ∧ t.config = s.config ∧ t.extWrites = s.extWrites ∧
    t.dotDebt = s.dotDebt ∧ t.dmaCycles = s.dmaCycles ∧ t.irqLine = s.irqLine ∧ t.published = s.published ∧
    t.cpu.s = s.cpu.s ∧ t.cpu.pc = s.cpu.pc ∧ t.cpu.nmiPending = s.cpu.nmiPending ∧ t.cpu.halted = s.cpu.halted ∧
    t.cpu.p.b = s.cpu.p.b ∧ t.cpu.p.d = s.cpu.p.d ∧ t.cpu.p.i = s.cpu.p.i ∧
    t.ppu.ctrl = s.ppu.ctrl ∧ t.ppu.mask = s.ppu.mask ∧ t.ppu.t = s.ppu.t ∧ t.ppu.x = s.ppu.x ∧
    t.ppu.oamAddr = s.ppu.oamAddr ∧ t.ppu.scanline = s.ppu.scanline ∧ t.ppu.dot = s.ppu.dot ∧
    t.ppu.frame = s.ppu.frame ∧ t.ppu.sprite0Hit = s.ppu.sprite0Hit ∧
    t.ppu.spriteOverflow = s.ppu.spriteOverflow ∧
    ((∀ m, src = .memory m → (peek s (effAddr m s).1.addr).isSome = true) → t.ppu = s.ppu ∧ t.draws = s.draws)

/-! ## Storing and modifying instructions -/

/-- 41_load_store_transfer.md R183, R184, R185 and 45_unofficial.md R305: STA, STX, STY and SAX write the register, or
`A AND X`, to the effective address, with no read, no flag and a fixed cost. A write of a page 0x20 to 0x7F to the DMA
trigger is refused (46_ppu_ports.md R352, decision D29; log entry 10). -/
def Obligations.StoresStore : Prop :=
  ∀ (k : Spec.Mnemonic) (op : Byte) (i : Instr) (m : AddrMode) (n : Nat) (s : State), Spec.WriteRow k op i m n →
    encode i = op :: Spec.modeBytes m ∧
    (k = .sta → Spec.Stores i m n s.cpu.a s) ∧
    (k = .stx → Spec.Stores i m n s.cpu.x s) ∧
    (k = .sty → Spec.Stores i m n s.cpu.y s) ∧
    (k = .sax → Spec.Stores i m n (s.cpu.a &&& s.cpu.x) s)

/-- 42_logic_shift_bit.md R213 to R216: ASL, LSR, ROL and ROR, on memory and on the accumulator. A write of a
page 0x20 to 0x7F to the DMA trigger is refused (46_ppu_ports.md R352, decision D29; log entry 10). -/
def Obligations.ShiftsAndRotates : Prop :=
  (∀ (k : Spec.Mnemonic) (op : Byte) (i : Instr) (m : AddrMode) (n : Nat) (s : State), Spec.ModifyRow k op i m n →
    (k = .asl ∨ k = .lsr ∨ k = .rol ∨ k = .ror → encode i = op :: Spec.modeBytes m) ∧
    (k = .asl → Spec.Modifies i m n Spec.asl s) ∧
    (k = .lsr → Spec.Modifies i m n Spec.lsr s) ∧
    (k = .rol → Spec.Modifies i m n Spec.rol s) ∧
    (k = .ror → Spec.Modifies i m n Spec.ror s)) ∧
  (encode .aslAccumulator = [0x0A] ∧ encode .lsrAccumulator = [0x4A] ∧ encode .rolAccumulator = [0x2A] ∧
    encode .rorAccumulator = [0x6A]) ∧
  (∀ s : State,
    let onA : (Byte → Cpu → Byte × Cpu) → State := fun f =>
      { s with cpu := { (f s.cpu.a s.cpu).2 with a := (f s.cpu.a s.cpu).1 }, cycles := 2 }
    exec .aslAccumulator s = .next (onA Spec.asl) ∧
    exec .lsrAccumulator s = .next (onA Spec.lsr) ∧
    exec .rolAccumulator s = .next (onA Spec.rol) ∧
    exec .rorAccumulator s = .next (onA Spec.ror))

/-- 43_compare_incdec_arith.md R233 to R238: INC and DEC on memory; INX, INY, DEX, DEY on the index registers; `N` and
`Z` from the result, no other flag. A write of a page 0x20 to 0x7F to the DMA trigger is refused (46_ppu_ports.md R352,
decision D29; log entry 10). -/
def Obligations.IncrementsAndDecrements : Prop :=
  (∀ (k : Spec.Mnemonic) (op : Byte) (i : Instr) (m : AddrMode) (n : Nat) (s : State), Spec.ModifyRow k op i m n →
    (k = .inc ∨ k = .dec → encode i = op :: Spec.modeBytes m) ∧
    (k = .inc → Spec.Modifies i m n Spec.inc s) ∧
    (k = .dec → Spec.Modifies i m n Spec.dec s)) ∧
  (encode .inx = [0xE8] ∧ encode .iny = [0xC8] ∧ encode .dex = [0xCA] ∧ encode .dey = [0x88]) ∧
  (∀ s : State,
    exec .inx s = .next { s with cpu := Spec.toX (BitVec.ofNat 8 (s.cpu.x.toNat + 1)) s.cpu, cycles := 2 } ∧
    exec .iny s = .next { s with cpu := Spec.toY (BitVec.ofNat 8 (s.cpu.y.toNat + 1)) s.cpu, cycles := 2 } ∧
    exec .dex s = .next { s with cpu := Spec.toX (BitVec.ofNat 8 (s.cpu.x.toNat + 255)) s.cpu, cycles := 2 } ∧
    exec .dey s = .next { s with cpu := Spec.toY (BitVec.ofNat 8 (s.cpu.y.toNat + 255)) s.cpu, cycles := 2 })

/-- 45_unofficial.md R301 to R304, R307, R308: SLO is ASL then ORA, RLA is ROL then AND, SRE is LSR then EOR, RRA is ROR
then ADC with the carry the rotation left, DCP is DEC then CMP, ISC is INC then SBC; the second on the byte written. A
write of a page 0x20 to 0x7F to the DMA trigger is refused (46_ppu_ports.md R352, decision D29; log entry 10). -/
def Obligations.CombinationsCompose : Prop :=
  ∀ (k : Spec.Mnemonic) (op : Byte) (i : Instr) (m : AddrMode) (n : Nat) (s : State), Spec.ModifyRow k op i m n →
    (k = .slo ∨ k = .rla ∨ k = .sre ∨ k = .rra ∨ k = .dcp ∨ k = .isc → encode i = op :: Spec.modeBytes m) ∧
    (k = .slo → Spec.Modifies i m n (Spec.andThen Spec.asl fun r q => Spec.toA (q.a ||| r) q) s) ∧
    (k = .rla → Spec.Modifies i m n (Spec.andThen Spec.rol fun r q => Spec.toA (q.a &&& r) q) s) ∧
    (k = .sre → Spec.Modifies i m n (Spec.andThen Spec.lsr fun r q => Spec.toA (q.a ^^^ r) q) s) ∧
    (k = .rra → Spec.Modifies i m n (Spec.andThen Spec.ror Spec.adc) s) ∧
    (k = .dcp → Spec.Modifies i m n (Spec.andThen Spec.dec fun r q => Spec.comparison q.a r q) s) ∧
    (k = .isc → Spec.Modifies i m n (Spec.andThen Spec.inc Spec.sbc) s)

/-- The frame of the storing and modifying instructions (40_addressing.md section 3, 20_memory.md section 1): the one
byte of RAM that changes is the one at the effective address, through all its mirrors; the video space changes only
through the data port, OAM only through its port or the copy, the output stream only through the collaborator window;
no register changes but `A` and the flags the instruction writes. -/
def Obligations.StoringInstructionsFrame : Prop :=
  ∀ (k : Spec.Mnemonic) (op : Byte) (i : Instr) (m : AddrMode) (n : Nat) (s t : State),
    Spec.WriteRow k op i m n ∨ Spec.ModifyRow k op i m n → exec i s = .next t →
    let a := (effAddr m s).1.addr
    (∀ b, ¬ Spec.SameCell a b → peek t b = peek s b) ∧
    (a.toNat < 0x2000 ∨ 0x8000 ≤ a.toNat → t.ppu = s.ppu ∧ t.extWrites = s.extWrites ∧ t.draws = s.draws) ∧
    (¬(0x2000 ≤ a.toNat ∧ a.toNat < 0x4000 ∧ a.toNat % 8 = 7) →
      ∀ b, vramRead t.cart.mirroring t.ppu b = vramRead s.cart.mirroring s.ppu b) ∧
    (¬(0x2000 ≤ a.toNat ∧ a.toNat < 0x4000 ∧ a.toNat % 8 = 4) ∧ a ≠ 0x4014 →
      ∀ b, t.ppu.oamByte b = s.ppu.oamByte b) ∧
    (¬(0x4000 ≤ a.toNat ∧ a.toNat < 0x4018) → t.extWrites = s.extWrites) ∧
    (a ≠ 0x4014 → t.dmaCycles = s.dmaCycles) ∧
    t.cart = s.cart ∧ t.config = s.config ∧ t.dotDebt = s.dotDebt ∧ t.irqLine = s.irqLine ∧
    t.published = s.published ∧
    t.cpu.x = s.cpu.x ∧ t.cpu.y = s.cpu.y ∧ t.cpu.s = s.cpu.s ∧ t.cpu.pc = s.cpu.pc ∧
    t.cpu.nmiPending = s.cpu.nmiPending ∧ t.cpu.halted = s.cpu.halted ∧
    t.cpu.p.b = s.cpu.p.b ∧ t.cpu.p.d = s.cpu.p.d ∧ t.cpu.p.i = s.cpu.p.i ∧
    t.ppu.scanline = s.ppu.scanline ∧ t.ppu.dot = s.ppu.dot ∧ t.ppu.frame = s.ppu.frame ∧
    t.ppu.sprite0Hit = s.ppu.sprite0Hit ∧ t.ppu.spriteOverflow = s.ppu.spriteOverflow ∧
    (k = .sta ∨ k = .stx ∨ k = .sty ∨ k = .sax → t.cpu = s.cpu)

/-! ## Transfers, stack, control, flags -/

/-- 41_load_store_transfer.md, Register transfers: TAX, TAY, TXA, TYA, TSX set `N` and `Z` from the value moved, TXS
sets no flag. -/
def Obligations.TransfersMove : Prop :=
  (encode .tax = [0xAA] ∧ encode .tay = [0xA8] ∧ encode .txa = [0x8A] ∧ encode .tya = [0x98] ∧ encode .tsx = [0xBA] ∧
    encode .txs = [0x9A]) ∧
  (∀ s : State,
    exec .tax s = .next { s with cpu := Spec.toX s.cpu.a s.cpu, cycles := 2 } ∧
    exec .tay s = .next { s with cpu := Spec.toY s.cpu.a s.cpu, cycles := 2 } ∧
    exec .txa s = .next { s with cpu := Spec.toA s.cpu.x s.cpu, cycles := 2 } ∧
    exec .tya s = .next { s with cpu := Spec.toA s.cpu.y s.cpu, cycles := 2 } ∧
    exec .tsx s = .next { s with cpu := Spec.toX s.cpu.s s.cpu, cycles := 2 } ∧
    exec .txs s = .next { s with cpu := { s.cpu with s := s.cpu.x }, cycles := 2 })

/-- 44_stack_control_flags.md R260, R262: PHA pushes `A`, PHP pushes the status byte with bits 5 and 4 set; the byte at
0x0100 + S is written, every other byte reads as before, `S` goes down by one modulo 256, and nothing else changes; PHA
then PLA gives `A` and `S` back. -/
def Obligations.PushesPush : Prop :=
  encode .pha = [0x48] ∧ encode .php = [0x08] ∧
  ∀ s : State, Memory.wf 2048 s.ram = true →
    (∃ t, exec .pha s = .next t ∧ Spec.BytesAfterStore (Spec.stack s.cpu.s) s.cpu.a s t ∧
      t = { s with ram := t.ram, cpu := { s.cpu with s := s.cpu.s - 1 }, cycles := 3 }) ∧
    (∃ t, exec .php s = .next t ∧ Spec.BytesAfterStore (Spec.stack s.cpu.s) (Spec.statusByte s.cpu.p true) s t ∧
      t = { s with ram := t.ram, cpu := { s.cpu with s := s.cpu.s - 1 }, cycles := 3 }) ∧
    (∀ v : Byte, ∃ t u, exec .pha s = .next t ∧ exec .pla (t.setA v) = .next u ∧
      u.cpu.a = s.cpu.a ∧ u.cpu.s = s.cpu.s)

/-- 44_stack_control_flags.md, Stack push and pull, and Jumps and subroutines: PLA, PLP, RTI and RTS pull from 0x0100 +
S + 1 upward; PLA loads the byte and sets `N` and `Z`, PLP takes all flags from it, RTI takes all flags and then the
program counter, low byte first, with nothing added, RTS the program counter, low byte first, plus one; no byte of
memory changes. -/
def Obligations.PullsPull : Prop :=
  encode .pla = [0x68] ∧ encode .plp = [0x28] ∧ encode .rti = [0x40] ∧ encode .rts = [0x60] ∧
  ∀ s : State,
    exec .pla s = .next { s with cpu := { Spec.toA (Spec.stackByte s (s.cpu.s + 1)) s.cpu with s := s.cpu.s + 1 },
                                 cycles := 4 } ∧
    exec .plp s = .next { s with cpu := { s.cpu with s := s.cpu.s + 1,
                                                     p := Spec.flagsOf (Spec.stackByte s (s.cpu.s + 1)) },
                                 cycles := 4 } ∧
    exec .rti s = .next { s with cpu := { s.cpu with
      s := s.cpu.s + 3,
      p := Spec.flagsOf (Spec.stackByte s (s.cpu.s + 1)),
      pc := word (Spec.stackByte s (s.cpu.s + 3)) (Spec.stackByte s (s.cpu.s + 2)) }, cycles := 6 } ∧
    exec .rts s = .next { s with cpu := { s.cpu with
      s := s.cpu.s + 2,
      pc := BitVec.ofNat 16 ((Spec.stackByte s (s.cpu.s + 1)).toNat +
        256 * (Spec.stackByte s (s.cpu.s + 2)).toNat + 1) }, cycles := 6 }

/-- 44_stack_control_flags.md R264, R265: JMP goes to its operand; JMP indirect to the word whose low byte is at the
pointer and whose high byte is at the address after it in the same page. -/
def Obligations.JumpsJump : Prop :=
  (∀ w : Addr, encode (.jmpAbsolute w) = [0x4C, lo8 w, hi8 w] ∧ encode (.jmpIndirect w) = [0x6C, lo8 w, hi8 w]) ∧
  (∀ (w : Addr) (s : State), exec (.jmpAbsolute w) s = .next { s with cpu := { s.cpu with pc := w }, cycles := 3 }) ∧
  (∀ (w : Addr) (s : State),
    let l := memRead w s
    let h := memRead (BitVec.ofNat 16 (w.toNat / 256 * 256 + (w.toNat % 256 + 1) % 256)) l.2
    exec (.jmpIndirect w) s = .next { h.2 with cpu := { s.cpu with pc := word h.1 l.1 }, cycles := 5 })

/-- 44_stack_control_flags.md, Jumps and subroutines: JSR pushes the high then the low byte of the address of its own
last byte and goes to its operand; the two stack bytes are the only ones that change. -/
def Obligations.JsrCalls : Prop :=
  (∀ w : Addr, encode (.jsr w) = [0x20, lo8 w, hi8 w]) ∧
  (∀ (w : Addr) (s : State), Memory.wf 2048 s.ram = true →
    ∃ t u, exec (.jsr w) s = .next t ∧
      Spec.BytesAfterStore (Spec.stack s.cpu.s) (hi8 (s.cpu.pc - 1)) s u ∧
      Spec.BytesAfterStore (Spec.stack (s.cpu.s - 1)) (lo8 (s.cpu.pc - 1)) u t ∧
      t = { s with ram := t.ram, cpu := { s.cpu with s := s.cpu.s - 2, pc := w }, cycles := 6 })

/-- The stack discipline of 44_stack_control_flags.md (Stack push and pull, Jumps and subroutines): PHP then PLP gives
the flags back, but for `B`, which takes the 1 in bit 4 of the pushed byte; JSR then RTS goes to the instruction after
the JSR; `S` is as before. -/
def Obligations.StackDiscipline : Prop :=
  ∀ s : State, Memory.wf 2048 s.ram = true →
    (∀ p : Flags, ∃ t u, exec .php s = .next t ∧ exec .plp (t.setP p) = .next u ∧
      u.cpu = { s.cpu with p := { s.cpu.p with b := true } }) ∧
    (∀ w : Addr, ∃ t u, exec (.jsr w) s = .next t ∧ exec .rts t = .next u ∧ u.cpu = s.cpu)

/-- 44_stack_control_flags.md, Conditional branches: the eight branches, taken exactly on their condition to the next
instruction's address plus the signed displacement; 2 cycles not taken, 3 taken in the page, 4 taken to another page. -/
def Obligations.BranchesBranch : Prop :=
  ∀ (k : Spec.Mnemonic) (op d : Byte) (i : Instr) (s : State), Spec.BranchRow k op d i →
    let target : Addr := BitVec.ofInt 16 (s.cpu.pc.toNat + d.toInt)
    encode i = [op, d] ∧
    (Spec.condition k s.cpu.p = false → exec i s = .next { s with cycles := 2 }) ∧
    (Spec.condition k s.cpu.p = true → exec i s = .next { s with
      cpu := { s.cpu with pc := target },
      cycles := if s.cpu.pc.toNat / 256 = target.toNat / 256 then 3 else 4 })

/-- 44_stack_control_flags.md R278, R279, R281 to R284 (and R280): each flag instruction writes its flag and nothing
else. -/
def Obligations.FlagInstructionsWriteOneFlag : Prop :=
  (encode .clc = [0x18] ∧ encode .sec = [0x38] ∧ encode .cli = [0x58] ∧ encode .sei = [0x78] ∧ encode .clv = [0xB8] ∧
    encode .cld = [0xD8] ∧ encode .sed = [0xF8]) ∧
  (∀ s : State,
    exec .clc s = .next { s with cpu := { s.cpu with p := { s.cpu.p with c := false } }, cycles := 2 } ∧
    exec .sec s = .next { s with cpu := { s.cpu with p := { s.cpu.p with c := true } }, cycles := 2 } ∧
    exec .cli s = .next { s with cpu := { s.cpu with p := { s.cpu.p with i := false } }, cycles := 2 } ∧
    exec .sei s = .next { s with cpu := { s.cpu with p := { s.cpu.p with i := true } }, cycles := 2 } ∧
    exec .clv s = .next { s with cpu := { s.cpu with p := { s.cpu.p with v := false } }, cycles := 2 } ∧
    exec .cld s = .next { s with cpu := { s.cpu with p := { s.cpu.p with d := false } }, cycles := 2 } ∧
    exec .sed s = .next { s with cpu := { s.cpu with p := { s.cpu.p with d := true } }, cycles := 2 })

/-- 44_stack_control_flags.md R286 and 45_unofficial.md R309 to R314: every NOP changes no register, no flag and no
memory and makes no data access; the absoluteX variants cost one more cycle when the index crosses a page. -/
def Obligations.NopsOnlyTakeTime : Prop :=
  (∀ (op : Byte) (operands : List Byte) (i : Instr) (n : Nat) (s : State), Spec.NopRow op operands i n →
    encode i = op :: operands ∧ exec i s = .next { s with cycles := n }) ∧
  (∀ (op : Byte) (w : Addr) (i : Instr) (s : State), Spec.NopIndexedRow op w i →
    encode i = [op, lo8 w, hi8 w] ∧
    exec i s = .next { s with cycles := if 255 < w.toNat % 256 + s.cpu.x.toNat then 5 else 4 })

/-! ## Interrupts -/

/-- 60_exceptions.md section 3 and 4 (the poll, taking the NMI and an IRQ): a pending NMI is taken whatever `I` is,
and clears the latch; an IRQ is taken when no NMI is pending, the line is asserted and `I` is clear; each entry is a
step of its own of 7 cycles; otherwise one instruction is executed. -/
def Obligations.InterruptsAreTakenAtTheBoundary : Prop :=
  ∀ s : State, s.cpu.halted = none →
    (s.cpu.nmiPending = true →
      cpuStep s = .next { enter 0xFFFA false { s with cpu := { s.cpu with nmiPending := false } } with cycles := 7 }) ∧
    (s.cpu.nmiPending = false → s.irqLine = true → s.cpu.p.i = false →
      cpuStep s = .next { enter 0xFFFE false s with cycles := 7 }) ∧
    (s.cpu.nmiPending = false → (s.irqLine = false ∨ s.cpu.p.i = true) →
      cpuStep s = exec (fetchInstr s).1 (fetchInstr s).2)

/-- 60_exceptions.md section 4 (the entry sequence, the frame on the stack): an entry writes the high and the low byte
of the program counter and the status byte, with bit 5 set and bit 4 the break bit, at 0x0100 + S and the two bytes
below (modulo the page); `S` goes down by three, `B` takes the break bit, `I` is set after the push, the program
counter is the word at the vector; every other byte, register and flag is unchanged. -/
def Obligations.EntrySequence : Prop :=
  ∀ (vec : Addr) (b : Bool) (s : State), vec = 0xFFFA ∨ vec = 0xFFFE → Memory.wf 2048 s.ram = true →
    let t := enter vec b s
    (∃ u v, Spec.BytesAfterStore (Spec.stack s.cpu.s) (hi8 s.cpu.pc) s u ∧
      Spec.BytesAfterStore (Spec.stack (s.cpu.s - 1)) (lo8 s.cpu.pc) u v ∧
      Spec.BytesAfterStore (Spec.stack (s.cpu.s - 2)) (Spec.statusByte s.cpu.p b) v t) ∧
    t = { s with
      ram := t.ram,
      cpu := { s.cpu with s := s.cpu.s - 3, p := { s.cpu.p with b := b, i := true },
                          pc := word (memRead (vec + 1) s).1 (memRead vec s).1 } }

/-- 44_stack_control_flags.md, BRK and NOP: where the parameter makes `I` mask BRK and `I` is set, BRK only costs its 7
cycles; otherwise it enters through 0xFFFE with the break bit set and the byte after the opcode skipped. -/
def Obligations.BrkEntersOrIsMasked : Prop :=
  encode .brk = [0x00] ∧
  ∀ s : State,
    (s.config.brkRespectsI = true → s.cpu.p.i = true → exec .brk s = .next { s with cycles := 7 }) ∧
    (s.config.brkRespectsI = false ∨ s.cpu.p.i = false →
      exec .brk s = .next { enter 0xFFFE true (s.setPc (s.cpu.pc + 1)) with cycles := 7 })

/-- 60_exceptions.md section 4 (Return): RTI after an entry resumes at the pushed program counter with every register
and flag as before the entry, but for `B`, which holds the break bit of the pushed byte; a BRK that is not masked,
because `I` is clear or the parameter lets `I` mask nothing, resumes at its address plus two. -/
def Obligations.ReturnUndoesEntry : Prop :=
  ∀ s : State, Memory.wf 2048 s.ram = true →
    (∀ (vec : Addr) (b : Bool), vec = 0xFFFA ∨ vec = 0xFFFE →
      ∃ t, exec .rti (enter vec b s) = .next t ∧ t.cpu = { s.cpu with p := { s.cpu.p with b := b } }) ∧
    (s.config.brkRespectsI = false ∨ s.cpu.p.i = false →
      ∃ t u, exec .brk s = .next t ∧ exec .rti t = .next u ∧
        u.cpu = { s.cpu with pc := s.cpu.pc + 1, p := { s.cpu.p with b := true } })

/-! ## The bus, the ports, the copy to OAM -/

/-- 20_memory.md R84: RAM and its mirrors are one array: after a write of `v` to an address below 0x2000 every address
of the same cell reads `v`, every other one below 0x2000 reads as before, and neither access changes anything else. -/
def Obligations.RamMirrorsAreOneArray : Prop :=
  ∀ (a b : Addr) (v : Byte) (s : State), Memory.wf 2048 s.ram = true → a.toNat < 0x2000 → b.toNat < 0x2000 →
    ∃ t, memWrite a v s = .next t ∧ t = { s with ram := t.ram } ∧
      (memRead b t).2 = t ∧
      (memRead b t).1 = if a.toNat % 0x800 = b.toNat % 0x800 then v else (memRead b s).1

/-- 20_memory.md section 1 (the cartridge, the collaborator window, open bus): a read of 0x8000 to 0xFFFF is the byte of
program code at that offset, round the 16 or 32 KiB of it; a write there, or to open bus, changes nothing; a write in
the collaborator window adds exactly its address and byte to the stream, newest first (log entry 5); a read of the
window or of open bus is a free value, whatever the draw counter holds, and moves only that counter (log entry 4). -/
def Obligations.RomAndWindows : Prop :=
  ∀ (a : Addr) (v : Byte) (s : State),
    (0x8000 ≤ a.toNat → s.cart.prgBlocks = .one →
      memRead a s = (Memory.get s.cart.prg ((a.toNat - 0x8000) % 16384), s)) ∧
    (0x8000 ≤ a.toNat → s.cart.prgBlocks = .two →
      memRead a s = (Memory.get s.cart.prg (a.toNat - 0x8000), s)) ∧
    (0x4018 ≤ a.toNat → memWrite a v s = .next s) ∧
    (0x4018 ≤ a.toNat ∧ a.toNat < 0x8000 ∨ a = 0x4014 →
      memRead a s = (Config.openBusRead s.draws, { s with draws := s.draws + 1 })) ∧
    (0x4000 ≤ a.toNat → a.toNat < 0x4018 → a ≠ 0x4014 →
      memWrite a v s = .next { s with extWrites := (a, v) :: s.extWrites } ∧
      memRead a s = (Config.extRead s.draws a, { s with draws := s.draws + 1 }))

/-- 46_ppu_ports.md section 10 (OAM-DMA): the copy puts the bytes of the page, in order, into OAM from `oam_addr` on,
wrapping, reads RAM and its mirrors or ROM directly, adds 513 cycles, and changes nothing else; a page 0x20 to 0x7F is
refused (log entry 10). -/
def Obligations.OamDmaCopiesAPage : Prop :=
  ∀ (page : Byte) (s : State), Memory.wf 256 s.ppu.oam = true →
    (page.toNat < 0x20 ∨ 0x80 ≤ page.toNat →
      ∃ t, memWrite 0x4014 page s = .next t ∧
        t = { s with ppu := { s.ppu with oam := t.ppu.oam }, dmaCycles := s.dmaCycles + 513 } ∧
        ∀ k : Nat, k < 256 →
          some (t.ppu.oamByte ((s.ppu.oamAddr.toNat + k) % 256)) =
            peek s (BitVec.ofNat 16 (page.toNat * 256 + k))) ∧
    (0x20 ≤ page.toNat ∧ page.toNat ≤ 0x7F → memWrite 0x4014 page s = .refused (.dmaSourceUnspecified page))

/-- 46_ppu_ports.md R333, R335, R339, R343, R345: a read of port 0, 1, 3, 5 or 6, at any address of the window,
returns the latch and changes nothing. -/
def Obligations.WriteOnlyPortsReadTheLatch : Prop :=
  ∀ (a : Addr) (s : State), 0x2000 ≤ a.toNat → a.toNat < 0x4000 →
    a.toNat % 8 = 0 ∨ a.toNat % 8 = 1 ∨ a.toNat % 8 = 3 ∨ a.toNat % 8 = 5 ∨ a.toNat % 8 = 6 →
    memRead a s = (s.ppu.latch, s)

/-- 46_ppu_ports.md sections 1 and 4 (status): a read of port 2 returns the three flags in bits 7, 6, 5 over the low
bits of the latch, loads the latch with that byte, clears `vblank` and `w`, and changes nothing else; a write loads
the latch only. -/
def Obligations.StatusPort : Prop :=
  ∀ (a : Addr) (s : State), 0x2000 ≤ a.toNat → a.toNat < 0x4000 → a.toNat % 8 = 2 →
    let r : Byte := BitVec.ofNat 8 (128 * s.ppu.vblank.toNat + 64 * s.ppu.sprite0Hit.toNat +
      32 * s.ppu.spriteOverflow.toNat + s.ppu.latch.toNat % 32)
    memRead a s = (r, { s with ppu := { s.ppu with vblank := false, w := false, latch := r } }) ∧
    ∀ d : Byte, memWrite a d s = .next { s with ppu := { s.ppu with latch := d } }

/-- 46_ppu_ports.md section 7 (data): the write goes to the video address in `v`, and `v` goes up by 1 or 32; a read
below the palette returns the buffer and refills it, a read of the palette returns the cell at once and buffers the
byte under it. -/
def Obligations.DataPort : Prop :=
  ∀ (a : Addr) (s : State), 0x2000 ≤ a.toNat → a.toNat < 0x4000 → a.toNat % 8 = 7 →
    let mir := s.cart.mirroring
    let va := s.ppu.v.toNat % 0x4000
    let next : BitVec 15 := BitVec.ofNat 15 (s.ppu.v.toNat + if s.ppu.ctrl.getLsbD 2 then 32 else 1)
    (∀ d : Byte, memWrite a d s =
      .next { s with ppu := { vramWrite mir { s.ppu with latch := d } va d with v := next } }) ∧
    (va < 0x3F00 → memRead a s = (s.ppu.readBuffer,
      { s with ppu := { s.ppu with readBuffer := vramRead mir s.ppu va, v := next, latch := s.ppu.readBuffer } })) ∧
    (0x3F00 ≤ va → memRead a s = (vramRead mir s.ppu va,
      { s with ppu := { s.ppu with readBuffer := vramRead mir s.ppu (va - 0x1000), v := next,
                                   latch := vramRead mir s.ppu va } }))

/-- 46_ppu_ports.md section 6 (scroll and VRAM address): which bits of `t`, `x`, `v` each of the two writes sets,
field by field; every bit not named is unchanged. -/
def Obligations.ScrollAndAddressPorts : Prop :=
  ∀ (a : Addr) (d : Byte) (s : State), 0x2000 ≤ a.toNat → a.toNat < 0x4000 →
    let u := s.ppu
    (a.toNat % 8 = 5 → u.w = false → ∃ t : BitVec 15,
      memWrite a d s = .next { s with ppu := { u with latch := d, t := t, x := d.extractLsb' 0 3, w := true } } ∧
      t.extractLsb' 0 5 = d.extractLsb' 3 5 ∧ t.extractLsb' 5 10 = u.t.extractLsb' 5 10) ∧
    (a.toNat % 8 = 5 → u.w = true → ∃ t : BitVec 15,
      memWrite a d s = .next { s with ppu := { u with latch := d, t := t, w := false } } ∧
      t.extractLsb' 12 3 = d.extractLsb' 0 3 ∧ t.extractLsb' 5 5 = d.extractLsb' 3 5 ∧
      t.extractLsb' 0 5 = u.t.extractLsb' 0 5 ∧ t.extractLsb' 10 2 = u.t.extractLsb' 10 2) ∧
    (a.toNat % 8 = 6 → u.w = false → ∃ t : BitVec 15,
      memWrite a d s = .next { s with ppu := { u with latch := d, t := t, w := true } } ∧
      t.extractLsb' 8 6 = d.extractLsb' 0 6 ∧ t.getLsbD 14 = false ∧ t.extractLsb' 0 8 = u.t.extractLsb' 0 8) ∧
    (a.toNat % 8 = 6 → u.w = true → ∃ t : BitVec 15,
      memWrite a d s = .next { s with ppu := { u with latch := d, t := t, v := t, w := false } } ∧
      t.extractLsb' 0 8 = d ∧ t.extractLsb' 8 7 = u.t.extractLsb' 8 7)

/-- 46_ppu_ports.md sections 2, 3 and 5 (control, mask, OAM address, OAM data): what each write stores and what the
one read returns; a write of OAM data steps the address, a read does not. -/
def Obligations.ControlMaskAndOamPorts : Prop :=
  ∀ (a : Addr) (d : Byte) (s : State), 0x2000 ≤ a.toNat → a.toNat < 0x4000 → Memory.wf 256 s.ppu.oam = true →
    let u := s.ppu
    (a.toNat % 8 = 0 → ∃ t : BitVec 15,
      memWrite a d s = .next { s with ppu := { u with latch := d, ctrl := d, t := t } } ∧
      t.extractLsb' 10 2 = d.extractLsb' 0 2 ∧ t.extractLsb' 0 10 = u.t.extractLsb' 0 10 ∧
      t.extractLsb' 12 3 = u.t.extractLsb' 12 3) ∧
    (a.toNat % 8 = 1 → memWrite a d s = .next { s with ppu := { u with latch := d, mask := d } }) ∧
    (a.toNat % 8 = 3 → memWrite a d s = .next { s with ppu := { u with latch := d, oamAddr := d } }) ∧
    (a.toNat % 8 = 4 → ∃ t, memWrite a d s = .next t ∧
      t = { s with ppu := { u with latch := d, oam := t.ppu.oam, oamAddr := u.oamAddr + 1 } } ∧
      ∀ k, t.ppu.oamByte k = if k = u.oamAddr.toNat then d else u.oamByte k) ∧
    (a.toNat % 8 = 4 → memRead a s =
      (u.oamByte u.oamAddr.toNat, { s with ppu := { u with latch := u.oamByte u.oamAddr.toNat } }))

/-- 20_memory.md section 3 (the video space, R100 to R104): over the whole space, a write is seen at every address that
designates the same cell (`Spec.SameVideoCell`) and at no other address; a palette cell keeps 6 bits; addresses wrap at
0x4000 in reads and in writes. -/
def Obligations.VideoSpaceMirrors : Prop :=
  ∀ (mir : Mirroring) (u : Ppu) (d : Byte), u.wf = true →
    (∀ a, vramRead mir u (a + 0x4000) = vramRead mir u a ∧ vramWrite mir u (a + 0x4000) d = vramWrite mir u a d) ∧
    (∀ a b, a < 0x4000 → b < 0x4000 → Spec.SameVideoCell mir a b →
      vramRead mir u a = vramRead mir u b ∧
      vramRead mir (vramWrite mir u a d) b = if a < 0x3F00 then d else BitVec.ofNat 8 (d.toNat % 64)) ∧
    (∀ a b, a < 0x4000 → b < 0x4000 → ¬ Spec.SameVideoCell mir a b →
      vramRead mir (vramWrite mir u a d) b = vramRead mir u b)

/-! ## The picture unit's dots -/

/-- 47_ppu_timing_render.md sections 2 and 5 (the vertical-blank flags, sprite overflow): entering (241, 1) sets
`vblank`; entering (261, 1) clears the three flags; entering dot 1 of a visible scanline with rendering enabled sets
the overflow flag when more than eight OAM entries cover the scanline, and at no other dot is it set; no other dot
changes `vblank`, and no other dot clears a sprite flag. -/
def Obligations.VerticalBlankFlags : Prop :=
  ∀ (mir : Mirroring) (u : Ppu),
    let w := Ppu.step mir u
    (w.scanline = 241 ∧ w.dot = 1 → w.vblank = true) ∧
    (w.scanline = 261 ∧ w.dot = 1 → w.vblank = false ∧ w.sprite0Hit = false ∧ w.spriteOverflow = false) ∧
    (¬(w.scanline = 241 ∧ w.dot = 1) → ¬(w.scanline = 261 ∧ w.dot = 1) →
      w.vblank = u.vblank ∧ (u.sprite0Hit = true → w.sprite0Hit = true)) ∧
    (¬(w.scanline = 261 ∧ w.dot = 1) →
      (w.spriteOverflow = true ↔
        u.spriteOverflow = true ∨
        (w.scanline ≤ 239 ∧ w.dot = 1 ∧ (u.mask.getLsbD 3 = true ∨ u.mask.getLsbD 4 = true) ∧
          8 < Spec.covering u w.scanline)))

/-- 47_ppu_timing_render.md section 2 (the NMI raise): a dot sets the NMI latch exactly on entering (241, 1) with the
enable bit set, and never clears it. -/
def Obligations.NmiIsRaisedAtVerticalBlank : Prop :=
  ∀ s : State,
    ((dotStep s).cpu.nmiPending = true ↔
      s.cpu.nmiPending = true ∨
      ((dotStep s).ppu.scanline = 241 ∧ (dotStep s).ppu.dot = 1 ∧ s.ppu.ctrl.getLsbD 7 = true)) ∧
    dotStep s = { s with ppu := (dotStep s).ppu, cpu := { s.cpu with nmiPending := (dotStep s).cpu.nmiPending } }

/-- 47_ppu_timing_render.md sections 3 and 4 (what the renderer writes and never writes): a dot changes no video
memory, no OAM, and none of `ctrl`, `mask`, `t`, `x`, `w`, `oam_addr`, the read buffer and the latch; with rendering
disabled it does not change `v`; the pixel buffer changes at most in the cell of the dot. -/
def Obligations.RendererWritesOnlyItsOwn : Prop :=
  ∀ (mir : Mirroring) (u : Ppu), u.wf = true →
    let w := Ppu.step mir u
    w = { u with v := w.v, vblank := w.vblank, sprite0Hit := w.sprite0Hit, spriteOverflow := w.spriteOverflow,
                 frame := w.frame, scanline := w.scanline, dot := w.dot } ∧
    (u.mask.getLsbD 3 = false → u.mask.getLsbD 4 = false → w.v = u.v) ∧
    (∀ y x, ¬(w.scanline = y ∧ y ≤ 239 ∧ w.dot = x + 1 ∧ w.dot ≤ 256) →
      Frame.get w.frame y x = Frame.get u.frame y x)

/-- 47_ppu_timing_render.md section 3 (the renderer's updates of `v`) with R375: with rendering enabled, `v` steps its
coarse X part at the multiples of 8 below 256 of a visible scanline, both parts at 256, takes the horizontal bits of `t`
at 257, also on scanline 261, and the vertical bits at 280 to 304 of scanline 261; at every other dot it is unchanged.
What the two steps do, in bit fields: R381 and R382. -/
def Obligations.RendererMovesV : Prop :=
  (∀ (mir : Mirroring) (u : Ppu), u.mask.getLsbD 3 = true ∨ u.mask.getLsbD 4 = true →
    let w := Ppu.step mir u
    (w.scanline ≤ 239 → 1 ≤ w.dot → w.dot < 256 → w.dot % 8 = 0 → w.v = coarseXInc u.v) ∧
    (w.scanline ≤ 239 → w.dot = 256 → w.v = yInc (coarseXInc u.v)) ∧
    (w.scanline ≤ 239 ∨ w.scanline = 261 → w.dot = 257 → w.v = (u.v &&& 0x7BE0) ||| (u.t &&& 0x041F)) ∧
    (w.scanline = 261 → 280 ≤ w.dot → w.dot ≤ 304 → w.v = (u.v &&& 0x041F) ||| (u.t &&& 0x7BE0)) ∧
    (w.scanline ≤ 239 → w.dot < 256 → w.dot % 8 ≠ 0 ∨ w.dot = 0 → w.v = u.v) ∧
    (w.scanline ≤ 239 → 257 < w.dot → w.v = u.v) ∧
    (240 ≤ w.scanline → w.scanline ≤ 260 → w.v = u.v) ∧
    (w.scanline = 261 → w.dot ≠ 257 → w.dot < 280 ∨ 304 < w.dot → w.v = u.v)) ∧
  (∀ v : BitVec 15,
    let x := (v.extractLsb' 0 5).toNat
    let r := coarseXInc v
    (x = 31 → r.extractLsb' 0 5 = 0 ∧ r.getLsbD 10 = !v.getLsbD 10) ∧
    (x < 31 → (r.extractLsb' 0 5).toNat = x + 1 ∧ r.getLsbD 10 = v.getLsbD 10) ∧
    r.extractLsb' 5 5 = v.extractLsb' 5 5 ∧ r.extractLsb' 11 4 = v.extractLsb' 11 4) ∧
  (∀ v : BitVec 15,
    let fine := (v.extractLsb' 12 3).toNat
    let y := (v.extractLsb' 5 5).toNat
    let r := yInc v
    (fine < 7 → (r.extractLsb' 12 3).toNat = fine + 1 ∧ r.extractLsb' 5 5 = v.extractLsb' 5 5 ∧
      r.getLsbD 11 = v.getLsbD 11) ∧
    (fine = 7 → r.extractLsb' 12 3 = 0) ∧
    (fine = 7 → y = 29 → r.extractLsb' 5 5 = 0 ∧ r.getLsbD 11 = !v.getLsbD 11) ∧
    (fine = 7 → y = 31 → r.extractLsb' 5 5 = 0 ∧ r.getLsbD 11 = v.getLsbD 11) ∧
    (fine = 7 → y ≠ 29 → y ≠ 31 → (r.extractLsb' 5 5).toNat = y + 1 ∧ r.getLsbD 11 = v.getLsbD 11) ∧
    r.extractLsb' 0 5 = v.extractLsb' 0 5 ∧ r.getLsbD 10 = v.getLsbD 10)

/-- 47_ppu_timing_render.md section 4 (the background pixel, R386 to R388), in integers: the tile is the nametable byte
at the position `v` holds, or one tile on where the fine X scroll passes the tile's edge (`coarseXInc`, which
`RendererMovesV` gives in bit fields); its colour comes from the pattern table `ctrl[4]` at row `v[14:12]`, its palette
from the two bits of the attribute byte for its quadrant; with `mask[3]` clear it is transparent. -/
def Obligations.BackgroundPixel : Prop :=
  ∀ (mir : Mirroring) (u : Ppu) (px : Nat),
    let col := u.x.toNat + px % 8
    let va := (if col < 8 then u.v else coarseXInc u.v).toNat
    let tile := (vramRead mir u (0x2000 + va % 4096)).toNat
    let attributes := (vramRead mir u (0x23C0 + va / 1024 % 4 * 0x400 + va / 128 % 8 * 8 + va / 4 % 8)).toNat
    (u.mask.getLsbD 3 = false → (bgPixel mir u px).colour = 0) ∧
    (u.mask.getLsbD 3 = true →
      (bgPixel mir u px).colour = Spec.tileColour mir u (Spec.bit u.ctrl 4) tile (va / 4096) (col % 8) ∧
      (bgPixel mir u px).palette = attributes / 2 ^ (va / 64 % 2 * 4 + va / 2 % 2 * 2) % 4)

/-- 47_ppu_timing_render.md section 4 (the sprite pixel, R391), in integers: OAM entry `i` produces a pixel exactly where
it covers the scanline and the column and its tile, from the pattern table `ctrl[3]`, flipped as the attribute bits 7
and 6 say, has a colour that is not 0; the sprite layer is the first such entry in OAM order, and empty where there is
none or `mask[4]` is clear. -/
def Obligations.SpritePixel : Prop :=
  ∀ (mir : Mirroring) (u : Ppu) (px y : Nat),
    (∀ i : Nat,
      let attributes := u.oamByte (4 * i + 2)
      let down := y - (Spec.sprite u i 0 + 1)
      let right := px - Spec.sprite u i 3
      let colour := Spec.tileColour mir u (Spec.bit u.ctrl 3) (Spec.sprite u i 1)
        (if attributes.getLsbD 7 then 7 - down else down) (if attributes.getLsbD 6 then 7 - right else right)
      let here := Spec.covers u y i ∧ Spec.sprite u i 3 ≤ px ∧ px ≤ Spec.sprite u i 3 + 7
      (here → colour ≠ 0 → spriteAt mir u px y i =
        some { index := i, colour := colour, palette := attributes.toNat % 4, behind := attributes.getLsbD 5 }) ∧
      (¬(here ∧ colour ≠ 0) → spriteAt mir u px y i = none)) ∧
    (u.mask.getLsbD 4 = false → spPixel mir u px y = none) ∧
    (u.mask.getLsbD 4 = true →
      ((∀ i, i < 64 → spriteAt mir u px y i = none) → spPixel mir u px y = none) ∧
      (∀ i, i < 64 → spriteAt mir u px y i ≠ none → (∀ j, j < i → spriteAt mir u px y j = none) →
        spPixel mir u px y = spriteAt mir u px y i))

/-- 47_ppu_timing_render.md section 5 (sprite-zero hit): a pixel sets the flag exactly when both layers are shown,
entry 0 has an opaque pixel there and the background is opaque there; priority does not matter; it never clears it.
Entering dot `px + 1` of visible scanline `y` does this for the pixel `(px, y)`; no other dot sets the flag. -/
def Obligations.SpriteZeroHit : Prop :=
  (∀ (mir : Mirroring) (u : Ppu) (px y : Nat),
    ((writePixel mir u px y).sprite0Hit = true ↔
      u.sprite0Hit = true ∨
      (u.mask.getLsbD 3 = true ∧ u.mask.getLsbD 4 = true ∧ (spriteAt mir u px y 0).isSome = true ∧
        (bgPixel mir u px).colour ≠ 0))) ∧
  (∀ (mir : Mirroring) (u : Ppu),
    let w := Ppu.step mir u
    (w.scanline ≤ 239 → 1 ≤ w.dot → w.dot ≤ 256 →
      w.sprite0Hit = (writePixel mir u (w.dot - 1) w.scanline).sprite0Hit) ∧
    (¬(w.scanline ≤ 239 ∧ 1 ≤ w.dot ∧ w.dot ≤ 256) → w.sprite0Hit = true → u.sprite0Hit = true))

/-- 47_ppu_timing_render.md section 4 (layer priority, colour address): the pixel written is the palette cell of the
layer that wins: the backdrop, the background, or the first opaque sprite in OAM order. Entering dot `px + 1` of visible
scanline `y` writes the pixel `(px, y)`. -/
def Obligations.PixelShowsTheWinningLayer : Prop :=
  (∀ (mir : Mirroring) (u : Ppu),
    let w := Ppu.step mir u
    w.scanline ≤ 239 → 1 ≤ w.dot → w.dot ≤ 256 → w.frame = (writePixel mir u (w.dot - 1) w.scanline).frame) ∧
  (∀ (mir : Mirroring) (u : Ppu) (px y : Nat), u.wf = true →
    let bg := bgPixel mir u px
    let shown := Frame.get (writePixel mir u px y).frame y px
    let cell : Nat → BitVec 6 := fun a => BitVec.ofNat 6 (vramRead mir u a).toNat
    (u.mask.getLsbD 3 = false → bg.colour = 0) ∧
    (u.mask.getLsbD 4 = false → spPixel mir u px y = none) ∧
    (bg.colour = 0 → spPixel mir u px y = none → shown = cell 0x3F00) ∧
    (bg.colour ≠ 0 → spPixel mir u px y = none → shown = cell (0x3F00 + bg.palette * 4 + bg.colour)) ∧
    (∀ sp, spPixel mir u px y = some sp → bg.colour = 0 ∨ sp.behind = false →
      shown = cell (0x3F10 + sp.palette * 4 + sp.colour)) ∧
    (∀ sp, spPixel mir u px y = some sp → bg.colour ≠ 0 → sp.behind = true →
      shown = cell (0x3F00 + bg.palette * 4 + bg.colour)) ∧
    (∀ sp, spPixel mir u px y = some sp →
      spriteAt mir u px y sp.index = some sp ∧ ∀ j, j < sp.index → spriteAt mir u px y j = none))

/-! ## The driver and the host -/

/-- 48_system_driver.md R423 (`run_frame` and the dot debt): a completed `run_frame` is the first `n` turns of
`System.step` that owe a frame of dots, with the levels the host presents (log entry 3), cut after exactly 89342 dots:
the debt before and the dots those turns owe are a frame and the debt after, and fewer turns owe less than a frame;
running that debt gives the state the `n` turns give. So the position comes round to where it was; the debt is less
than the dots of the longest step, 1563; the invariant is kept, and the picture unit's frame is published. -/
def Obligations.RunFrameIsOneFrame : Prop :=
  ∀ (levels : List Bool) (s t : State), s.wf = true → s.dotDebt ≤ 1562 → runFrame levels s = .next t →
    t.ppu.position = s.ppu.position ∧ t.dotDebt ≤ 1562 ∧ t.published = some t.ppu.frame ∧ t.wf = true ∧
    ∃ (n : Nat) (u : State),
      Spec.turns n levels s = .next u ∧
      s.dotDebt + Spec.turnsOwe n levels s = 89342 + t.dotDebt ∧
      (∀ m, m < n → s.dotDebt + Spec.turnsOwe m levels s < 89342) ∧
      { runDots t.dotDebt t with dotDebt := 0, published := s.published } = u

/-- 48_system_driver.md section 2 (the cartridge image format and its worked example): an image is accepted exactly
when it has a whole header with the signature, one or two program blocks, at most one pattern block, and all the bytes
those declare; then the regions hold the bytes after the header, in order, and bit 0 of byte 6 is the mirroring.
`load_rom` of an accepted image installs it and resets; of any other it reports the error and leaves the session as it
was (R426 with decision D47: log entry 11). -/
def Obligations.LoadRomReadsTheImage : Prop :=
  ∀ bytes : List Byte,
    let prg := (bytes.getD 4 0).toNat
    let chr := (bytes.getD 5 0).toNat
    ((∃ c, parseImage bytes = .ok c) ↔
      (16 ≤ bytes.length ∧ bytes.take 4 = [0x4E, 0x45, 0x53, 0x1A] ∧ (prg = 1 ∨ prg = 2) ∧ (chr = 0 ∨ chr = 1) ∧
        16 + 16384 * prg + 8192 * chr ≤ bytes.length)) ∧
    (∀ c, parseImage bytes = .ok c →
      c.wf = true ∧ c.prgLen = 16384 * prg ∧
      (∀ k, k < 16384 * prg → Memory.get c.prg k = bytes.getD (16 + k) 0) ∧
      (c.chr = none ↔ chr = 0) ∧
      (∀ m, c.chr = some m → ∀ k, k < 8192 → Memory.get m k = bytes.getD (16 + 16384 * prg + k) 0) ∧
      (c.mirroring = .vertical ↔ (bytes.getD 6 0).getLsbD 0 = true)) ∧
    (∀ (init : MemInit) (ses : Session),
      (∀ c, parseImage bytes = .ok c →
        ∃ t, Session.loadRom bytes init ses = (some t, .ok ()) ∧ t.cart = c ∧ t = hostReset init t) ∧
      (∀ e, parseImage bytes = .error e → Session.loadRom bytes init ses = (ses, .error (.load e))))
end

