-- ==== Sys2Proof/Laws/State.lean ====
section
/-! SUPPORT. One lemma per field per register update: what `setA`, `setX`, `setY`, `setS`, `setPc`, `setP`, `setNZ` and
`charge` change and what they leave. All hold by `rfl`; with them no later proof unfolds a record update. -/

namespace Sys2Proof.Machine

/-! ## `State.setA` -/

@[simp] theorem State.setA_cpu_a (s : State) (v : Byte) : (s.setA v).cpu.a = v := rfl
@[simp] theorem State.setA_cpu_x (s : State) (v : Byte) : (s.setA v).cpu.x = s.cpu.x := rfl
@[simp] theorem State.setA_cpu_y (s : State) (v : Byte) : (s.setA v).cpu.y = s.cpu.y := rfl
@[simp] theorem State.setA_cpu_s (s : State) (v : Byte) : (s.setA v).cpu.s = s.cpu.s := rfl
@[simp] theorem State.setA_cpu_pc (s : State) (v : Byte) : (s.setA v).cpu.pc = s.cpu.pc := rfl
@[simp] theorem State.setA_cpu_p (s : State) (v : Byte) : (s.setA v).cpu.p = s.cpu.p := rfl
@[simp] theorem State.setA_cpu_nmiPending (s : State) (v : Byte) : (s.setA v).cpu.nmiPending = s.cpu.nmiPending := rfl
@[simp] theorem State.setA_cpu_halted (s : State) (v : Byte) : (s.setA v).cpu.halted = s.cpu.halted := rfl
@[simp] theorem State.setA_ppu (s : State) (v : Byte) : (s.setA v).ppu = s.ppu := rfl
@[simp] theorem State.setA_ram (s : State) (v : Byte) : (s.setA v).ram = s.ram := rfl
@[simp] theorem State.setA_cart (s : State) (v : Byte) : (s.setA v).cart = s.cart := rfl
@[simp] theorem State.setA_config (s : State) (v : Byte) : (s.setA v).config = s.config := rfl
@[simp] theorem State.setA_dotDebt (s : State) (v : Byte) : (s.setA v).dotDebt = s.dotDebt := rfl
@[simp] theorem State.setA_dmaCycles (s : State) (v : Byte) : (s.setA v).dmaCycles = s.dmaCycles := rfl
@[simp] theorem State.setA_cycles (s : State) (v : Byte) : (s.setA v).cycles = s.cycles := rfl
@[simp] theorem State.setA_irqLine (s : State) (v : Byte) : (s.setA v).irqLine = s.irqLine := rfl
@[simp] theorem State.setA_extWrites (s : State) (v : Byte) : (s.setA v).extWrites = s.extWrites := rfl
@[simp] theorem State.setA_published (s : State) (v : Byte) : (s.setA v).published = s.published := rfl
@[simp] theorem State.setA_draws (s : State) (v : Byte) : (s.setA v).draws = s.draws := rfl

/-! ## `State.setX` -/

@[simp] theorem State.setX_cpu_a (s : State) (v : Byte) : (s.setX v).cpu.a = s.cpu.a := rfl
@[simp] theorem State.setX_cpu_x (s : State) (v : Byte) : (s.setX v).cpu.x = v := rfl
@[simp] theorem State.setX_cpu_y (s : State) (v : Byte) : (s.setX v).cpu.y = s.cpu.y := rfl
@[simp] theorem State.setX_cpu_s (s : State) (v : Byte) : (s.setX v).cpu.s = s.cpu.s := rfl
@[simp] theorem State.setX_cpu_pc (s : State) (v : Byte) : (s.setX v).cpu.pc = s.cpu.pc := rfl
@[simp] theorem State.setX_cpu_p (s : State) (v : Byte) : (s.setX v).cpu.p = s.cpu.p := rfl
@[simp] theorem State.setX_cpu_nmiPending (s : State) (v : Byte) : (s.setX v).cpu.nmiPending = s.cpu.nmiPending := rfl
@[simp] theorem State.setX_cpu_halted (s : State) (v : Byte) : (s.setX v).cpu.halted = s.cpu.halted := rfl
@[simp] theorem State.setX_ppu (s : State) (v : Byte) : (s.setX v).ppu = s.ppu := rfl
@[simp] theorem State.setX_ram (s : State) (v : Byte) : (s.setX v).ram = s.ram := rfl
@[simp] theorem State.setX_cart (s : State) (v : Byte) : (s.setX v).cart = s.cart := rfl
@[simp] theorem State.setX_config (s : State) (v : Byte) : (s.setX v).config = s.config := rfl
@[simp] theorem State.setX_dotDebt (s : State) (v : Byte) : (s.setX v).dotDebt = s.dotDebt := rfl
@[simp] theorem State.setX_dmaCycles (s : State) (v : Byte) : (s.setX v).dmaCycles = s.dmaCycles := rfl
@[simp] theorem State.setX_cycles (s : State) (v : Byte) : (s.setX v).cycles = s.cycles := rfl
@[simp] theorem State.setX_irqLine (s : State) (v : Byte) : (s.setX v).irqLine = s.irqLine := rfl
@[simp] theorem State.setX_extWrites (s : State) (v : Byte) : (s.setX v).extWrites = s.extWrites := rfl
@[simp] theorem State.setX_published (s : State) (v : Byte) : (s.setX v).published = s.published := rfl
@[simp] theorem State.setX_draws (s : State) (v : Byte) : (s.setX v).draws = s.draws := rfl

/-! ## `State.setY` -/

@[simp] theorem State.setY_cpu_a (s : State) (v : Byte) : (s.setY v).cpu.a = s.cpu.a := rfl
@[simp] theorem State.setY_cpu_x (s : State) (v : Byte) : (s.setY v).cpu.x = s.cpu.x := rfl
@[simp] theorem State.setY_cpu_y (s : State) (v : Byte) : (s.setY v).cpu.y = v := rfl
@[simp] theorem State.setY_cpu_s (s : State) (v : Byte) : (s.setY v).cpu.s = s.cpu.s := rfl
@[simp] theorem State.setY_cpu_pc (s : State) (v : Byte) : (s.setY v).cpu.pc = s.cpu.pc := rfl
@[simp] theorem State.setY_cpu_p (s : State) (v : Byte) : (s.setY v).cpu.p = s.cpu.p := rfl
@[simp] theorem State.setY_cpu_nmiPending (s : State) (v : Byte) : (s.setY v).cpu.nmiPending = s.cpu.nmiPending := rfl
@[simp] theorem State.setY_cpu_halted (s : State) (v : Byte) : (s.setY v).cpu.halted = s.cpu.halted := rfl
@[simp] theorem State.setY_ppu (s : State) (v : Byte) : (s.setY v).ppu = s.ppu := rfl
@[simp] theorem State.setY_ram (s : State) (v : Byte) : (s.setY v).ram = s.ram := rfl
@[simp] theorem State.setY_cart (s : State) (v : Byte) : (s.setY v).cart = s.cart := rfl
@[simp] theorem State.setY_config (s : State) (v : Byte) : (s.setY v).config = s.config := rfl
@[simp] theorem State.setY_dotDebt (s : State) (v : Byte) : (s.setY v).dotDebt = s.dotDebt := rfl
@[simp] theorem State.setY_dmaCycles (s : State) (v : Byte) : (s.setY v).dmaCycles = s.dmaCycles := rfl
@[simp] theorem State.setY_cycles (s : State) (v : Byte) : (s.setY v).cycles = s.cycles := rfl
@[simp] theorem State.setY_irqLine (s : State) (v : Byte) : (s.setY v).irqLine = s.irqLine := rfl
@[simp] theorem State.setY_extWrites (s : State) (v : Byte) : (s.setY v).extWrites = s.extWrites := rfl
@[simp] theorem State.setY_published (s : State) (v : Byte) : (s.setY v).published = s.published := rfl
@[simp] theorem State.setY_draws (s : State) (v : Byte) : (s.setY v).draws = s.draws := rfl

/-! ## `State.setS` -/

@[simp] theorem State.setS_cpu_a (s : State) (v : Byte) : (s.setS v).cpu.a = s.cpu.a := rfl
@[simp] theorem State.setS_cpu_x (s : State) (v : Byte) : (s.setS v).cpu.x = s.cpu.x := rfl
@[simp] theorem State.setS_cpu_y (s : State) (v : Byte) : (s.setS v).cpu.y = s.cpu.y := rfl
@[simp] theorem State.setS_cpu_s (s : State) (v : Byte) : (s.setS v).cpu.s = v := rfl
@[simp] theorem State.setS_cpu_pc (s : State) (v : Byte) : (s.setS v).cpu.pc = s.cpu.pc := rfl
@[simp] theorem State.setS_cpu_p (s : State) (v : Byte) : (s.setS v).cpu.p = s.cpu.p := rfl
@[simp] theorem State.setS_cpu_nmiPending (s : State) (v : Byte) : (s.setS v).cpu.nmiPending = s.cpu.nmiPending := rfl
@[simp] theorem State.setS_cpu_halted (s : State) (v : Byte) : (s.setS v).cpu.halted = s.cpu.halted := rfl
@[simp] theorem State.setS_ppu (s : State) (v : Byte) : (s.setS v).ppu = s.ppu := rfl
@[simp] theorem State.setS_ram (s : State) (v : Byte) : (s.setS v).ram = s.ram := rfl
@[simp] theorem State.setS_cart (s : State) (v : Byte) : (s.setS v).cart = s.cart := rfl
@[simp] theorem State.setS_config (s : State) (v : Byte) : (s.setS v).config = s.config := rfl
@[simp] theorem State.setS_dotDebt (s : State) (v : Byte) : (s.setS v).dotDebt = s.dotDebt := rfl
@[simp] theorem State.setS_dmaCycles (s : State) (v : Byte) : (s.setS v).dmaCycles = s.dmaCycles := rfl
@[simp] theorem State.setS_cycles (s : State) (v : Byte) : (s.setS v).cycles = s.cycles := rfl
@[simp] theorem State.setS_irqLine (s : State) (v : Byte) : (s.setS v).irqLine = s.irqLine := rfl
@[simp] theorem State.setS_extWrites (s : State) (v : Byte) : (s.setS v).extWrites = s.extWrites := rfl
@[simp] theorem State.setS_published (s : State) (v : Byte) : (s.setS v).published = s.published := rfl
@[simp] theorem State.setS_draws (s : State) (v : Byte) : (s.setS v).draws = s.draws := rfl

/-! ## `State.setPc` -/

@[simp] theorem State.setPc_cpu_a (s : State) (w : Addr) : (s.setPc w).cpu.a = s.cpu.a := rfl
@[simp] theorem State.setPc_cpu_x (s : State) (w : Addr) : (s.setPc w).cpu.x = s.cpu.x := rfl
@[simp] theorem State.setPc_cpu_y (s : State) (w : Addr) : (s.setPc w).cpu.y = s.cpu.y := rfl
@[simp] theorem State.setPc_cpu_s (s : State) (w : Addr) : (s.setPc w).cpu.s = s.cpu.s := rfl
@[simp] theorem State.setPc_cpu_pc (s : State) (w : Addr) : (s.setPc w).cpu.pc = w := rfl
@[simp] theorem State.setPc_cpu_p (s : State) (w : Addr) : (s.setPc w).cpu.p = s.cpu.p := rfl
@[simp] theorem State.setPc_cpu_nmiPending (s : State) (w : Addr) : (s.setPc w).cpu.nmiPending = s.cpu.nmiPending := rfl
@[simp] theorem State.setPc_cpu_halted (s : State) (w : Addr) : (s.setPc w).cpu.halted = s.cpu.halted := rfl
@[simp] theorem State.setPc_ppu (s : State) (w : Addr) : (s.setPc w).ppu = s.ppu := rfl
@[simp] theorem State.setPc_ram (s : State) (w : Addr) : (s.setPc w).ram = s.ram := rfl
@[simp] theorem State.setPc_cart (s : State) (w : Addr) : (s.setPc w).cart = s.cart := rfl
@[simp] theorem State.setPc_config (s : State) (w : Addr) : (s.setPc w).config = s.config := rfl
@[simp] theorem State.setPc_dotDebt (s : State) (w : Addr) : (s.setPc w).dotDebt = s.dotDebt := rfl
@[simp] theorem State.setPc_dmaCycles (s : State) (w : Addr) : (s.setPc w).dmaCycles = s.dmaCycles := rfl
@[simp] theorem State.setPc_cycles (s : State) (w : Addr) : (s.setPc w).cycles = s.cycles := rfl
@[simp] theorem State.setPc_irqLine (s : State) (w : Addr) : (s.setPc w).irqLine = s.irqLine := rfl
@[simp] theorem State.setPc_extWrites (s : State) (w : Addr) : (s.setPc w).extWrites = s.extWrites := rfl
@[simp] theorem State.setPc_published (s : State) (w : Addr) : (s.setPc w).published = s.published := rfl
@[simp] theorem State.setPc_draws (s : State) (w : Addr) : (s.setPc w).draws = s.draws := rfl

/-! ## `State.setP` -/

@[simp] theorem State.setP_cpu_a (s : State) (p : Flags) : (s.setP p).cpu.a = s.cpu.a := rfl
@[simp] theorem State.setP_cpu_x (s : State) (p : Flags) : (s.setP p).cpu.x = s.cpu.x := rfl
@[simp] theorem State.setP_cpu_y (s : State) (p : Flags) : (s.setP p).cpu.y = s.cpu.y := rfl
@[simp] theorem State.setP_cpu_s (s : State) (p : Flags) : (s.setP p).cpu.s = s.cpu.s := rfl
@[simp] theorem State.setP_cpu_pc (s : State) (p : Flags) : (s.setP p).cpu.pc = s.cpu.pc := rfl
@[simp] theorem State.setP_cpu_p (s : State) (p : Flags) : (s.setP p).cpu.p = p := rfl
@[simp] theorem State.setP_cpu_nmiPending (s : State) (p : Flags) : (s.setP p).cpu.nmiPending = s.cpu.nmiPending := rfl
@[simp] theorem State.setP_cpu_halted (s : State) (p : Flags) : (s.setP p).cpu.halted = s.cpu.halted := rfl
@[simp] theorem State.setP_ppu (s : State) (p : Flags) : (s.setP p).ppu = s.ppu := rfl
@[simp] theorem State.setP_ram (s : State) (p : Flags) : (s.setP p).ram = s.ram := rfl
@[simp] theorem State.setP_cart (s : State) (p : Flags) : (s.setP p).cart = s.cart := rfl
@[simp] theorem State.setP_config (s : State) (p : Flags) : (s.setP p).config = s.config := rfl
@[simp] theorem State.setP_dotDebt (s : State) (p : Flags) : (s.setP p).dotDebt = s.dotDebt := rfl
@[simp] theorem State.setP_dmaCycles (s : State) (p : Flags) : (s.setP p).dmaCycles = s.dmaCycles := rfl
@[simp] theorem State.setP_cycles (s : State) (p : Flags) : (s.setP p).cycles = s.cycles := rfl
@[simp] theorem State.setP_irqLine (s : State) (p : Flags) : (s.setP p).irqLine = s.irqLine := rfl
@[simp] theorem State.setP_extWrites (s : State) (p : Flags) : (s.setP p).extWrites = s.extWrites := rfl
@[simp] theorem State.setP_published (s : State) (p : Flags) : (s.setP p).published = s.published := rfl
@[simp] theorem State.setP_draws (s : State) (p : Flags) : (s.setP p).draws = s.draws := rfl

/-! ## `State.setNZ` -/

@[simp] theorem State.setNZ_cpu_a (s : State) (v : Byte) : (s.setNZ v).cpu.a = s.cpu.a := rfl
@[simp] theorem State.setNZ_cpu_x (s : State) (v : Byte) : (s.setNZ v).cpu.x = s.cpu.x := rfl
@[simp] theorem State.setNZ_cpu_y (s : State) (v : Byte) : (s.setNZ v).cpu.y = s.cpu.y := rfl
@[simp] theorem State.setNZ_cpu_s (s : State) (v : Byte) : (s.setNZ v).cpu.s = s.cpu.s := rfl
@[simp] theorem State.setNZ_cpu_pc (s : State) (v : Byte) : (s.setNZ v).cpu.pc = s.cpu.pc := rfl
@[simp] theorem State.setNZ_cpu_p (s : State) (v : Byte) : (s.setNZ v).cpu.p = s.cpu.p.setNZ v := rfl
@[simp] theorem State.setNZ_cpu_nmiPending (s : State) (v : Byte) : (s.setNZ v).cpu.nmiPending = s.cpu.nmiPending := rfl
@[simp] theorem State.setNZ_cpu_halted (s : State) (v : Byte) : (s.setNZ v).cpu.halted = s.cpu.halted := rfl
@[simp] theorem State.setNZ_ppu (s : State) (v : Byte) : (s.setNZ v).ppu = s.ppu := rfl
@[simp] theorem State.setNZ_ram (s : State) (v : Byte) : (s.setNZ v).ram = s.ram := rfl
@[simp] theorem State.setNZ_cart (s : State) (v : Byte) : (s.setNZ v).cart = s.cart := rfl
@[simp] theorem State.setNZ_config (s : State) (v : Byte) : (s.setNZ v).config = s.config := rfl
@[simp] theorem State.setNZ_dotDebt (s : State) (v : Byte) : (s.setNZ v).dotDebt = s.dotDebt := rfl
@[simp] theorem State.setNZ_dmaCycles (s : State) (v : Byte) : (s.setNZ v).dmaCycles = s.dmaCycles := rfl
@[simp] theorem State.setNZ_cycles (s : State) (v : Byte) : (s.setNZ v).cycles = s.cycles := rfl
@[simp] theorem State.setNZ_irqLine (s : State) (v : Byte) : (s.setNZ v).irqLine = s.irqLine := rfl
@[simp] theorem State.setNZ_extWrites (s : State) (v : Byte) : (s.setNZ v).extWrites = s.extWrites := rfl
@[simp] theorem State.setNZ_published (s : State) (v : Byte) : (s.setNZ v).published = s.published := rfl
@[simp] theorem State.setNZ_draws (s : State) (v : Byte) : (s.setNZ v).draws = s.draws := rfl

/-! ## `State.charge` -/

@[simp] theorem State.charge_cpu (s : State) (n : Nat) : (s.charge n).cpu = s.cpu := rfl
@[simp] theorem State.charge_ppu (s : State) (n : Nat) : (s.charge n).ppu = s.ppu := rfl
@[simp] theorem State.charge_ram (s : State) (n : Nat) : (s.charge n).ram = s.ram := rfl
@[simp] theorem State.charge_cart (s : State) (n : Nat) : (s.charge n).cart = s.cart := rfl
@[simp] theorem State.charge_config (s : State) (n : Nat) : (s.charge n).config = s.config := rfl
@[simp] theorem State.charge_dotDebt (s : State) (n : Nat) : (s.charge n).dotDebt = s.dotDebt := rfl
@[simp] theorem State.charge_dmaCycles (s : State) (n : Nat) : (s.charge n).dmaCycles = s.dmaCycles := rfl
@[simp] theorem State.charge_cycles (s : State) (n : Nat) : (s.charge n).cycles = n := rfl
@[simp] theorem State.charge_irqLine (s : State) (n : Nat) : (s.charge n).irqLine = s.irqLine := rfl
@[simp] theorem State.charge_extWrites (s : State) (n : Nat) : (s.charge n).extWrites = s.extWrites := rfl
@[simp] theorem State.charge_published (s : State) (n : Nat) : (s.charge n).published = s.published := rfl
@[simp] theorem State.charge_draws (s : State) (n : Nat) : (s.charge n).draws = s.draws := rfl

/-! ## `Result.andThen` -/

@[simp] theorem Result.andThen_next (s : State) (f : State → Result) : Result.andThen (.next s) f = f s := rfl
@[simp] theorem Result.andThen_fault (e : Fault) (f : State → Result) : Result.andThen (.fault e) f = .fault e := rfl
@[simp] theorem Result.andThen_refused (e : Refusal) (f : State → Result) : Result.andThen (.refused e) f = .refused e := rfl

/-- A sequence answers next exactly when both parts do. -/
theorem Result.andThen_eq_next {r : Result} {f : State → Result} {t : State} :
    Result.andThen r f = .next t ↔ ∃ s, r = .next s ∧ f s = .next t := by
  cases r <;> simp [Result.andThen]

/-! ## The flag updates -/

@[simp] theorem Flags.setNZ_n (p : Flags) (v : Byte) : (p.setNZ v).n = v.getLsbD 7 := rfl
@[simp] theorem Flags.setNZ_v (p : Flags) (v : Byte) : (p.setNZ v).v = p.v := rfl
@[simp] theorem Flags.setNZ_b (p : Flags) (v : Byte) : (p.setNZ v).b = p.b := rfl
@[simp] theorem Flags.setNZ_d (p : Flags) (v : Byte) : (p.setNZ v).d = p.d := rfl
@[simp] theorem Flags.setNZ_i (p : Flags) (v : Byte) : (p.setNZ v).i = p.i := rfl
@[simp] theorem Flags.setNZ_z (p : Flags) (v : Byte) : (p.setNZ v).z = decide (v = 0) := rfl
@[simp] theorem Flags.setNZ_c (p : Flags) (v : Byte) : (p.setNZ v).c = p.c := rfl
@[simp] theorem Flags.compare_n (p : Flags) (r m : Byte) : (p.compare r m).n = (r - m).getLsbD 7 := rfl
@[simp] theorem Flags.compare_v (p : Flags) (r m : Byte) : (p.compare r m).v = p.v := rfl
@[simp] theorem Flags.compare_b (p : Flags) (r m : Byte) : (p.compare r m).b = p.b := rfl
@[simp] theorem Flags.compare_d (p : Flags) (r m : Byte) : (p.compare r m).d = p.d := rfl
@[simp] theorem Flags.compare_i (p : Flags) (r m : Byte) : (p.compare r m).i = p.i := rfl
@[simp] theorem Flags.compare_z (p : Flags) (r m : Byte) : (p.compare r m).z = decide (r = m) := rfl
@[simp] theorem Flags.compare_c (p : Flags) (r m : Byte) : (p.compare r m).c = decide (m.toNat ≤ r.toNat) := rfl
@[simp] theorem Flags.bit_n (p : Flags) (a m : Byte) : (p.bit a m).n = m.getLsbD 7 := rfl
@[simp] theorem Flags.bit_v (p : Flags) (a m : Byte) : (p.bit a m).v = m.getLsbD 6 := rfl
@[simp] theorem Flags.bit_b (p : Flags) (a m : Byte) : (p.bit a m).b = p.b := rfl
@[simp] theorem Flags.bit_d (p : Flags) (a m : Byte) : (p.bit a m).d = p.d := rfl
@[simp] theorem Flags.bit_i (p : Flags) (a m : Byte) : (p.bit a m).i = p.i := rfl
@[simp] theorem Flags.bit_z (p : Flags) (a m : Byte) : (p.bit a m).z = decide (a &&& m = 0) := rfl
@[simp] theorem Flags.bit_c (p : Flags) (a m : Byte) : (p.bit a m).c = p.c := rfl
@[simp] theorem Flags.setSum_n (p : Flags) (r : Sum) : (p.setSum r).n = r.result.getLsbD 7 := rfl
@[simp] theorem Flags.setSum_v (p : Flags) (r : Sum) : (p.setSum r).v = r.overflow := rfl
@[simp] theorem Flags.setSum_b (p : Flags) (r : Sum) : (p.setSum r).b = p.b := rfl
@[simp] theorem Flags.setSum_d (p : Flags) (r : Sum) : (p.setSum r).d = p.d := rfl
@[simp] theorem Flags.setSum_i (p : Flags) (r : Sum) : (p.setSum r).i = p.i := rfl
@[simp] theorem Flags.setSum_z (p : Flags) (r : Sum) : (p.setSum r).z = decide (r.result = 0) := rfl
@[simp] theorem Flags.setSum_c (p : Flags) (r : Sum) : (p.setSum r).c = r.carry := rfl
@[simp] theorem Flags.setShifted_n (p : Flags) (r : Shifted) : (p.setShifted r).n = r.result.getLsbD 7 := rfl
@[simp] theorem Flags.setShifted_v (p : Flags) (r : Shifted) : (p.setShifted r).v = p.v := rfl
@[simp] theorem Flags.setShifted_b (p : Flags) (r : Shifted) : (p.setShifted r).b = p.b := rfl
@[simp] theorem Flags.setShifted_d (p : Flags) (r : Shifted) : (p.setShifted r).d = p.d := rfl
@[simp] theorem Flags.setShifted_i (p : Flags) (r : Shifted) : (p.setShifted r).i = p.i := rfl
@[simp] theorem Flags.setShifted_z (p : Flags) (r : Shifted) : (p.setShifted r).z = decide (r.result = 0) := rfl
@[simp] theorem Flags.setShifted_c (p : Flags) (r : Shifted) : (p.setShifted r).c = r.carry := rfl

end Sys2Proof.Machine
end

