-- ==== Sys2Proof/Laws/Bits.lean ====
section
/-! SUPPORT. The laws of bytes and words, of the packed status byte, and of the sums: what `adcSum` and `sbcSum` give,
in integers. -/

namespace Sys2Proof

@[simp] theorem word_hi8_lo8 (w : Addr) : word (hi8 w) (lo8 w) = w := by
  apply BitVec.eq_of_getLsbD_eq
  intro i hi
  simp only [word, hi8, lo8, BitVec.getLsbD_append, BitVec.getLsbD_extractLsb']
  by_cases h : i < 8
  · simp [h]
  · simp [h, show i - 8 < 8 by omega, show 8 + (i - 8) = i by omega]

@[simp] theorem hi8_word (h l : Byte) : hi8 (word h l) = h := by
  apply BitVec.eq_of_getLsbD_eq
  intro i hi
  simp only [word, hi8, BitVec.getLsbD_extractLsb', hi, decide_true, Bool.true_and]
  rw [BitVec.getLsbD_append, if_neg (by omega)]
  simp

@[simp] theorem lo8_word (h l : Byte) : lo8 (word h l) = l := by
  apply BitVec.eq_of_getLsbD_eq
  intro i hi
  simp only [word, lo8, BitVec.getLsbD_extractLsb', hi, decide_true, Bool.true_and]
  rw [BitVec.getLsbD_append, if_pos (by omega)]
  simp

theorem toNat_word (h l : Byte) : (word h l).toNat = h.toNat * 256 + l.toNat := by
  have := l.isLt
  simp only [word, BitVec.toNat_append]
  rw [← Nat.shiftLeft_add_eq_or_of_lt this, Nat.shiftLeft_eq]

theorem toNat_hi8 (w : Addr) : (hi8 w).toNat = w.toNat / 256 := by
  have h := congrArg BitVec.toNat (word_hi8_lo8 w)
  rw [toNat_word] at h
  have := (lo8 w).isLt
  omega

theorem toNat_lo8 (w : Addr) : (lo8 w).toNat = w.toNat % 256 := by
  have h := congrArg BitVec.toNat (word_hi8_lo8 w)
  rw [toNat_word] at h
  have := (lo8 w).isLt
  omega

namespace Machine

/-- The sign bit of a byte, as a bound. -/
theorem bit7_iff (b : Byte) : b.getLsbD 7 = decide (128 ≤ b.toNat) := by
  have := b.isLt
  rw [show b.getLsbD 7 = b.msb from (BitVec.msb_eq_getLsbD_last b).symm, BitVec.msb_eq_decide]

theorem toInt_byte (b : Byte) : b.toInt = if 128 ≤ b.toNat then (b.toNat : Int) - 256 else b.toNat := by
  have := b.isLt
  rw [BitVec.toInt_eq_toNat_cond]
  split <;> split <;> omega

/-- `(a ^ r) & (m ^ r) & 0x80` is not zero exactly when `r` differs in sign from both. -/
theorem signs_differ (a m r : Byte) :
    decide ((a ^^^ r) &&& (m ^^^ r) &&& 0x80 ≠ 0) =
      ((a.getLsbD 7 != r.getLsbD 7) && (m.getLsbD 7 != r.getLsbD 7)) := by
  have key : (a ^^^ r) &&& (m ^^^ r) &&& 0x80 = 0 ↔ ((a ^^^ r) &&& (m ^^^ r)).getLsbD 7 = false := by
    generalize (a ^^^ r) &&& (m ^^^ r) = x
    revert x
    decide
  by_cases h : (a ^^^ r) &&& (m ^^^ r) &&& 0x80 = 0
  · have := key.mp h
    simp only [BitVec.getLsbD_and, BitVec.getLsbD_xor] at this
    simp only [h, ne_eq, not_true_eq_false, decide_false]
    exact this.symm
  · have := mt key.mpr h
    simp only [BitVec.getLsbD_and, BitVec.getLsbD_xor, Bool.not_eq_false] at this
    simp only [ne_eq, h, not_false_eq_true, decide_true]
    exact this.symm

/-- The result of the sum ADC makes. -/
theorem adcSum_result (a m : Byte) (c : Bool) :
    (adcSum a m c).result = BitVec.ofNat 8 (a.toNat + m.toNat + c.toNat) := rfl

/-- The carry of the sum ADC makes. -/
theorem adcSum_carry (a m : Byte) (c : Bool) :
    (adcSum a m c).carry = decide (255 < a.toNat + m.toNat + c.toNat) := rfl

/-- The overflow of the sum ADC makes: the true signed sum leaves the range of a byte. -/
theorem adcSum_overflow (a m : Byte) (c : Bool) :
    (adcSum a m c).overflow =
      decide (a.toInt + m.toInt + c.toNat < -128 ∨ 127 < a.toInt + m.toInt + c.toNat) := by
  have ha := a.isLt
  have hm := m.isLt
  simp only [adcSum, signs_differ, bit7_iff, toInt_byte, BitVec.toNat_ofNat]
  cases c <;> simp only [Bool.toNat_false, Bool.toNat_true] <;>
    · rw [Bool.eq_iff_iff]
      simp only [Bool.and_eq_true, bne_iff_ne, ne_eq, decide_eq_decide, decide_eq_true_eq]
      split <;> split <;> omega

/-- The result of the difference SBC makes: `A - M - (1 - C)` modulo 256. -/
theorem sbcSum_result (a m : Byte) (c : Bool) :
    (sbcSum a m c).result = BitVec.ofInt 8 ((a.toNat : Int) - m.toNat - (1 - c.toNat)) := by
  have ha := a.isLt
  have hm := m.isLt
  apply BitVec.eq_of_toNat_eq
  simp only [sbcSum, adcSum, BitVec.toNat_ofNat, BitVec.toNat_sub, BitVec.toNat_ofInt]
  cases c <;> simp <;> omega

/-- The carry SBC leaves: no borrow. -/
theorem sbcSum_carry (a m : Byte) (c : Bool) :
    (sbcSum a m c).carry = decide (m.toNat + (1 - c.toNat) ≤ a.toNat) := by
  have ha := a.isLt
  have hm := m.isLt
  simp only [sbcSum, adcSum, BitVec.toNat_sub, decide_eq_decide]
  cases c <;> simp <;> omega

/-- The overflow SBC leaves: the true signed difference leaves the range of a byte. -/
theorem sbcSum_overflow (a m : Byte) (c : Bool) :
    (sbcSum a m c).overflow =
      decide (a.toInt - m.toInt - (1 - c.toNat) < -128 ∨ 127 < a.toInt - m.toInt - (1 - c.toNat)) := by
  have ha := a.isLt
  have hm := m.isLt
  rw [sbcSum, adcSum_overflow, decide_eq_decide]
  simp only [toInt_byte, BitVec.toNat_sub]
  cases c <;> simp <;> split <;> split <;> split <;> omega

/-- Subtracting what was added, with the carry complemented, gives the byte back (43_compare_incdec_arith.md R243). -/
theorem sbcSum_adcSum (a b : Byte) (c : Bool) : (sbcSum (adcSum a b c).result b (!c)).result = a := by
  have ha := a.isLt
  have hb := b.isLt
  apply BitVec.eq_of_toNat_eq
  simp only [sbcSum, adcSum, BitVec.toNat_ofNat, BitVec.toNat_sub]
  cases c <;> simp <;> omega

/-! ## The status byte -/

theorem Flags.unpack_pack (p : Flags) (b4 : Bool) : Flags.unpack (p.pack b4) = { p with b := b4 } := by
  obtain ⟨n, v, b, d, i, z, c⟩ := p
  revert n v b d i z c b4
  decide

/-- `Pack` after `Unpack` gives the byte back with bit 5 set and bit 4 chosen. -/
theorem Flags.pack_unpack (w : Byte) (b4 : Bool) :
    (Flags.unpack w).pack b4 = (w &&& 0xCF) ||| (if b4 then 0x30 else 0x20) := by
  cases b4 <;> revert w <;> decide

end Machine
end Sys2Proof
end

