-- ==== Sys2Proof/Laws/Memory.lean ====
section
/-! SUPPORT. The laws of the memories: read after write, writes keep the canonical form, and canonical memories
that read alike are equal. -/

namespace Sys2Proof.Machine

section
variable {α : Type} [DecidableEq α] {d : α} {size : Nat}

/-- Below its first index a canonical memory reads as `d`. -/
theorem Cells.get_below {lo : Nat} {m : Cells α} (h : Cells.wfFrom d size lo m) {j : Nat} (hj : j < lo) :
    Cells.get d m j = d := by
  induction m generalizing lo with
  | nil => rfl
  | cons kv m ih =>
    obtain ⟨k, v⟩ := kv
    simp only [Cells.wfFrom, Bool.and_eq_true, decide_eq_true_eq] at h
    rw [Cells.get, if_neg (by omega)]
    exact ih h.2 (by omega)

/-- A write leaves every other cell alone. -/
theorem Cells.get_set_other (m : Cells α) {i j : Nat} (x : α) (h : j ≠ i) :
    Cells.get d (Cells.set d m i x) j = Cells.get d m j := by
  induction m with
  | nil =>
    by_cases hx : x = d
    · simp [Cells.set, hx]
    · simp [Cells.set, hx, Cells.get, Ne.symm h]
  | cons kv m ih =>
    obtain ⟨k, v⟩ := kv
    unfold Cells.set
    split
    · split
      · rfl
      · rw [Cells.get, if_neg (Ne.symm h)]
    · split
      · next hik =>
        subst hik
        split
        · rw [Cells.get.eq_2 d, if_neg (Ne.symm h)]
        · rw [Cells.get, Cells.get, if_neg (Ne.symm h), if_neg (Ne.symm h)]
      · rw [Cells.get, Cells.get, ih]

/-- A read of the cell written gives the value written. -/
theorem Cells.get_set_same {lo : Nat} {m : Cells α} (h : Cells.wfFrom d size lo m) (i : Nat) (x : α) :
    Cells.get d (Cells.set d m i x) i = x := by
  induction m generalizing lo with
  | nil => by_cases hx : x = d <;> simp [Cells.set, hx, Cells.get]
  | cons kv m ih =>
    obtain ⟨k, v⟩ := kv
    simp only [Cells.wfFrom, Bool.and_eq_true, decide_eq_true_eq] at h
    unfold Cells.set
    split
    · next hik =>
      split
      · next hx =>
        rw [Cells.get, if_neg (by omega), hx]
        exact Cells.get_below h.2 (by omega)
      · rw [Cells.get, if_pos rfl]
    · split
      · next hik =>
        split
        · next hx =>
          rw [hx]
          exact Cells.get_below h.2 (by omega)
        · rw [Cells.get, if_pos rfl]
      · next h1 h2 =>
        rw [Cells.get, if_neg (by omega)]
        exact ih h.2

/-- The canonical form from an index on is one from any lower index on. -/
theorem Cells.wfFrom_mono {lo lo' : Nat} {m : Cells α} (h : Cells.wfFrom d size lo' m) (hle : lo ≤ lo') :
    Cells.wfFrom d size lo m := by
  cases m with
  | nil => rfl
  | cons kv m =>
    obtain ⟨k, v⟩ := kv
    simp only [Cells.wfFrom, Bool.and_eq_true, decide_eq_true_eq] at h ⊢
    exact ⟨⟨⟨by omega, h.1.1.2⟩, h.1.2⟩, h.2⟩

/-- A write inside the memory keeps the canonical form. -/
theorem Cells.wfFrom_set {lo : Nat} {m : Cells α} (h : Cells.wfFrom d size lo m) {i : Nat} (hlo : lo ≤ i)
    (hi : i < size) (x : α) : Cells.wfFrom d size lo (Cells.set d m i x) := by
  induction m generalizing lo with
  | nil => by_cases hx : x = d <;> simp [Cells.set, hx, Cells.wfFrom, hlo, hi]
  | cons kv m ih =>
    obtain ⟨k, v⟩ := kv
    have hm := h
    simp only [Cells.wfFrom, Bool.and_eq_true, decide_eq_true_eq] at h
    unfold Cells.set
    split
    · split
      · exact hm
      · next hik hx => simp [Cells.wfFrom, hlo, hi, hx, h.1.1.2, h.1.2, h.2]; omega
    · split
      · next hik =>
        subst hik
        split
        · exact Cells.wfFrom_mono h.2 (by omega)
        · next hx => simp [Cells.wfFrom, hlo, hi, hx, h.2]
      · next h1 h2 =>
        have := ih h.2 (by omega)
        simp [Cells.wfFrom, h.1.1.1, h.1.1.2, h.1.2, this]

/-- A write inside the memory keeps the canonical form. -/
theorem Cells.wf_set {m : Cells α} (h : Cells.wf d size m) {i : Nat} (hi : i < size) (x : α) :
    Cells.wf d size (Cells.set d m i x) := Cells.wfFrom_set h (Nat.zero_le i) hi x

/-- Read after write. -/
theorem Cells.get_set {m : Cells α} (h : Cells.wf d size m) (i j : Nat) (x : α) :
    Cells.get d (Cells.set d m i x) j = if j = i then x else Cells.get d m j := by
  by_cases hj : j = i
  · rw [if_pos hj, hj]; exact Cells.get_set_same h i x
  · rw [if_neg hj]; exact Cells.get_set_other m x hj

/-- Canonical memories that read alike are equal data. -/
theorem Cells.ext_from {lo : Nat} {m m' : Cells α} (h : Cells.wfFrom d size lo m) (h' : Cells.wfFrom d size lo m')
    (e : ∀ i, Cells.get d m i = Cells.get d m' i) : m = m' := by
  induction m generalizing lo m' with
  | nil =>
    cases m' with
    | nil => rfl
    | cons kv m' =>
      obtain ⟨k, v⟩ := kv
      simp only [Cells.wfFrom, Bool.and_eq_true, decide_eq_true_eq] at h'
      have := e k
      rw [Cells.get, Cells.get, if_pos rfl] at this
      exact absurd this.symm h'.1.2
  | cons kv m ih =>
    obtain ⟨k, v⟩ := kv
    simp only [Cells.wfFrom, Bool.and_eq_true, decide_eq_true_eq] at h
    cases m' with
    | nil =>
      have := e k
      rw [Cells.get, Cells.get, if_pos rfl] at this
      exact absurd this h.1.2
    | cons kv' m' =>
      obtain ⟨k', v'⟩ := kv'
      simp only [Cells.wfFrom, Bool.and_eq_true, decide_eq_true_eq] at h'
      have hkk : k = k' := by
        rcases Nat.lt_trichotomy k k' with hlt | heq | hgt
        · have := e k
          rw [Cells.get, Cells.get, if_pos rfl, if_neg (by omega), Cells.get_below h'.2 (by omega)] at this
          exact absurd this h.1.2
        · exact heq
        · have := e k'
          rw [Cells.get, Cells.get, if_pos rfl, if_neg (by omega), Cells.get_below h.2 (by omega)] at this
          exact absurd this.symm h'.1.2
      subst hkk
      have hv : v = v' := by
        have := e k
        rwa [Cells.get, Cells.get, if_pos rfl, if_pos rfl] at this
      subst hv
      rw [ih h.2 h'.2 fun i => ?_]
      by_cases hi : i = k
      · subst hi
        rw [Cells.get_below h.2 (by omega), Cells.get_below h'.2 (by omega)]
      · have := e i
        rwa [Cells.get, Cells.get, if_neg (Ne.symm hi), if_neg (Ne.symm hi)] at this

/-- Canonical memories that read alike are equal data. -/
theorem Cells.ext {m m' : Cells α} (h : Cells.wf d size m) (h' : Cells.wf d size m')
    (e : ∀ i, Cells.get d m i = Cells.get d m' i) : m = m' := Cells.ext_from h h' e

end

/-! ## Byte memories -/

theorem Memory.get_set {m : Memory} {size : Nat} (h : Memory.wf size m) (i j : Nat) (v : Byte) :
    Memory.get (Memory.set m i v) j = if j = i then v else Memory.get m j := Cells.get_set h i j v

theorem Memory.get_set_other (m : Memory) {i j : Nat} (v : Byte) (h : j ≠ i) :
    Memory.get (Memory.set m i v) j = Memory.get m j := Cells.get_set_other m v h

theorem Memory.wf_set {m : Memory} {size : Nat} (h : Memory.wf size m) {i : Nat} (hi : i < size) (v : Byte) :
    Memory.wf size (Memory.set m i v) := Cells.wf_set h hi v

/-- The memory made from a list of bytes is canonical. -/
theorem Memory.wfFrom_ofBytes (bs : List Byte) (i size : Nat) (h : i + bs.length ≤ size) :
    Cells.wfFrom unlistedByte size i (Memory.ofBytes i bs) := by
  induction bs generalizing i with
  | nil => rfl
  | cons b bs ih =>
    simp only [List.length_cons] at h
    have := ih (i + 1) (by omega)
    unfold Memory.ofBytes
    split
    · exact Cells.wfFrom_mono this (Nat.le_succ i)
    · next hb => simp [Cells.wfFrom, hb, this]; omega

/-- The memory made from a list of bytes holds those bytes. -/
theorem Memory.get_ofBytes (bs : List Byte) (i j : Nat) :
    Memory.get (Memory.ofBytes i bs) (i + j) = bs.getD j unlistedByte := by
  induction bs generalizing i j with
  | nil => simp [Memory.ofBytes, Memory.get, Cells.get]
  | cons b bs ih =>
    have hwf := Memory.wfFrom_ofBytes bs (i + 1) (i + 1 + bs.length) (Nat.le_refl _)
    cases j with
    | zero =>
      unfold Memory.ofBytes
      split
      · next hb => simpa [hb, Memory.get] using Cells.get_below hwf (j := i) (by omega)
      · simp [Memory.get, Cells.get]
    | succ j =>
      have := ih (i + 1) j
      rw [show i + 1 + j = i + (j + 1) by omega] at this
      unfold Memory.ofBytes
      split
      · simpa using this
      · rw [Memory.get, Cells.get, if_neg (by omega)]
        simpa [Memory.get] using this

/-! ## The pixel buffer and the palette -/

theorem Palette.get_set {p : Palette} (h : Palette.wf p) (i j : Nat) (c : BitVec 6) :
    Palette.get (Palette.set p i c) j = if j = i then c else Palette.get p j := by
  simp only [Palette.wf, Bool.and_eq_true] at h
  exact Cells.get_set h.1 i j c

/-- Every entry of a memory after a write was there before or is the one written. -/
theorem Cells.mem_set {α : Type} [DecidableEq α] {d : α} {m : Cells α} {i : Nat} {x : α} {c : Nat × α}
    (h : c ∈ Cells.set d m i x) : c ∈ m ∨ c = (i, x) := by
  induction m with
  | nil =>
    unfold Cells.set at h
    split at h
    · exact .inl h
    · exact .inr (List.mem_singleton.mp h)
  | cons kv m ih =>
    obtain ⟨k, v⟩ := kv
    unfold Cells.set at h
    split at h
    · split at h
      · exact .inl h
      · rcases List.mem_cons.mp h with h | h
        · exact .inr h
        · exact .inl h
    · split at h
      · split at h
        · exact .inl (List.mem_cons_of_mem _ h)
        · rcases List.mem_cons.mp h with h | h
          · exact .inr h
          · exact .inl (List.mem_cons_of_mem _ h)
      · rcases List.mem_cons.mp h with h | h
        · exact .inl (h ▸ List.mem_cons_self)
        · rcases ih h with h | h
          · exact .inl (List.mem_cons_of_mem _ h)
          · exact .inr h

/-- A write through `paletteIndex` keeps the palette's form: the four aliased cells stay unused. -/
theorem Palette.wf_set {p : Palette} (h : Palette.wf p) {i : Nat} (hi : i < 32)
    (hu : i ≠ 0x10 ∧ i ≠ 0x14 ∧ i ≠ 0x18 ∧ i ≠ 0x1C) (c : BitVec 6) : Palette.wf (Palette.set p i c) := by
  simp only [Palette.wf, Bool.and_eq_true, List.all_eq_true] at h ⊢
  refine ⟨Cells.wf_set h.1 hi c, fun e he => ?_⟩
  rcases Cells.mem_set he with he | he
  · exact h.2 e he
  · subst he; simp [hu]

/-- A row of a canonical pixel buffer is canonical. -/
theorem Frame.wf_row {f : Frame} (h : Frame.wf f) (y : Nat) : Cells.wf 0 256 (Cells.get [] f y) := by
  simp only [Frame.wf, Bool.and_eq_true, List.all_eq_true] at h
  have h2 := h.2
  clear h
  induction f with
  | nil => rfl
  | cons kv f ih =>
    obtain ⟨k, r⟩ := kv
    unfold Cells.get
    split
    · exact h2 _ List.mem_cons_self
    · exact ih fun e he => h2 e (List.mem_cons_of_mem _ he)

/-- A pixel write inside the picture keeps the pixel buffer's form. -/
theorem Frame.wf_set {f : Frame} (h : Frame.wf f) {y x : Nat} (hy : y < 240) (hx : x < 256) (c : BitVec 6) :
    Frame.wf (Frame.set f y x c) := by
  have hrow := Cells.wf_set (Frame.wf_row h y) hx c
  have h' := h
  simp only [Frame.wf, Bool.and_eq_true, List.all_eq_true] at h' ⊢
  refine ⟨Cells.wf_set h'.1 hy _, fun e he => ?_⟩
  rcases Cells.mem_set he with he | he
  · exact h'.2 e he
  · subst he; exact hrow

/-- Read after write of the pixel buffer. -/
theorem Frame.get_set {f : Frame} (h : Frame.wf f) (y x y' x' : Nat) (c : BitVec 6) :
    Frame.get (Frame.set f y x c) y' x' = if y' = y ∧ x' = x then c else Frame.get f y' x' := by
  have hrow := Frame.wf_row h y
  simp only [Frame.wf, Bool.and_eq_true] at h
  unfold Frame.get Frame.set
  rw [Cells.get_set h.1]
  by_cases hy : y' = y
  · subst hy
    rw [if_pos rfl, Cells.get_set hrow]
    simp
  · simp [hy]

end Sys2Proof.Machine
end

