-- ==== Sys2Proof/Laws/Bus.lean ====
section
/-! SUPPORT. The laws of the CPU bus: where an address goes, what a read and a write can change, the pointer reads,
the stack, the effective addresses. -/

namespace Sys2Proof.Machine

/-! ## Routing -/

theorem route_ram {c : Cartridge} {a : Addr} (h : a.toNat < 0x2000) : route c a = .ram (a.toNat % 0x800) := by
  simp [route, h]

theorem route_port {c : Cartridge} {a : Addr} (h : 0x2000 ≤ a.toNat) (h' : a.toNat < 0x4000) :
    route c a = .port (portOf a) := by
  simp [route, show ¬ a.toNat < 0x2000 by omega, h']

theorem route_rom {c : Cartridge} {a : Addr} (h : 0x8000 ≤ a.toNat) : route c a = .rom (c.romIndex a) := by
  simp [route, show ¬ a.toNat < 0x2000 by omega, show ¬ a.toNat < 0x4000 by omega, show a.toNat ≠ 0x4014 by omega,
    show ¬ a.toNat < 0x4018 by omega, show ¬ a.toNat < 0x8000 by omega]

/-- The index of a RAM cell the bus reaches. -/
theorem route_ram_lt {c : Cartridge} {a : Addr} {i : Nat} (h : route c a = .ram i) : i < 0x800 := by
  unfold route at h
  dsimp only at h
  repeat' split at h
  all_goals first
    | (cases h; omega)
    | cases h

theorem romIndex_lt (c : Cartridge) (a : Addr) : c.romIndex a < c.prgLen := by
  unfold Cartridge.romIndex
  apply Nat.mod_lt
  unfold Cartridge.prgLen
  split <;> decide

/-- The index of a ROM cell the bus reaches. -/
theorem route_rom_lt {c : Cartridge} {a : Addr} {i : Nat} (h : route c a = .rom i) : i < c.prgLen := by
  unfold route at h
  dsimp only at h
  repeat' split at h
  all_goals first
    | (injection h with h; rw [← h]; exact romIndex_lt c a)
    | (injection h)

/-- The DMA trigger is the one address 0x4014. -/
theorem route_dma_iff {c : Cartridge} {a : Addr} : route c a = .dmaTrigger ↔ a.toNat = 0x4014 := by
  unfold route
  dsimp only
  repeat' split
  all_goals simp
  all_goals omega

@[simp] theorem route_zeroPage (c : Cartridge) (b : Byte) : route c (word 0 b) = .ram b.toNat := by
  have hb := b.isLt
  have ht : (word 0 b).toNat = b.toNat := by rw [toNat_word]; simp
  rw [route_ram (by omega), ht, Nat.mod_eq_of_lt (by omega)]

@[simp] theorem route_stack (c : Cartridge) (p : Byte) : route c (stackAddr p) = .ram (256 + p.toNat) := by
  have hp := p.isLt
  have ht : (stackAddr p).toNat = 256 + p.toNat := by unfold stackAddr; rw [toNat_word]; simp
  rw [route_ram (by omega), ht, Nat.mod_eq_of_lt (by omega)]

/-! ## Reads -/

/-- A cell that can be read without the bus reads the same through it, with no side effect. -/
theorem memRead_of_peek {a : Addr} {s : State} {b : Byte} (h : peek s a = some b) : memRead a s = (b, s) := by
  unfold peek at h
  unfold memRead
  split at h
  · next i hi => rw [hi]; cases h; rfl
  · next i hi => rw [hi]; cases h; rfl
  · cases h

theorem memRead_of_route_ram {a : Addr} {s : State} {i : Nat} (h : route s.cart a = .ram i) :
    memRead a s = (Memory.get s.ram i, s) := by unfold memRead; rw [h]

theorem memRead_of_route_rom {a : Addr} {s : State} {i : Nat} (h : route s.cart a = .rom i) :
    memRead a s = (Memory.get s.cart.prg i, s) := by unfold memRead; rw [h]

theorem memRead_of_route_port {a : Addr} {s : State} {p : Port} (h : route s.cart a = .port p) :
    memRead a s = ((portRead s.cart.mirroring p s.ppu).1, { s with ppu := (portRead s.cart.mirroring p s.ppu).2 }) := by
  unfold memRead; rw [h]

/-- All a read can do: nothing, a port read, or the use of one free value. -/
theorem memRead_state (a : Addr) (s : State) :
    (memRead a s).2 = s ∨
    (∃ p, (memRead a s).2 = { s with ppu := (portRead s.cart.mirroring p s.ppu).2 }) ∨
    (memRead a s).2 = { s with draws := s.draws + 1 } := by
  unfold memRead
  split
  · exact .inl rfl
  · next p _ => exact .inr (.inl ⟨p, rfl⟩)
  · exact .inr (.inr rfl)
  · exact .inr (.inr rfl)
  · exact .inr (.inr rfl)
  · exact .inl rfl

/-- A read changes no register, no memory of the CPU side and none of the driver's counters. -/
theorem memRead_keeps (a : Addr) (s : State) :
    (memRead a s).2.cpu = s.cpu ∧ (memRead a s).2.ram = s.ram ∧ (memRead a s).2.cart = s.cart ∧
    (memRead a s).2.config = s.config ∧ (memRead a s).2.dotDebt = s.dotDebt ∧
    (memRead a s).2.dmaCycles = s.dmaCycles ∧ (memRead a s).2.cycles = s.cycles ∧
    (memRead a s).2.irqLine = s.irqLine ∧ (memRead a s).2.extWrites = s.extWrites ∧
    (memRead a s).2.published = s.published := by
  rcases memRead_state a s with h | ⟨p, h⟩ | h <;> rw [h] <;> exact ⟨rfl, rfl, rfl, rfl, rfl, rfl, rfl, rfl, rfl, rfl⟩

@[simp] theorem memRead_cpu (a : Addr) (s : State) : (memRead a s).2.cpu = s.cpu := (memRead_keeps a s).1
@[simp] theorem memRead_ram (a : Addr) (s : State) : (memRead a s).2.ram = s.ram := (memRead_keeps a s).2.1
@[simp] theorem memRead_cart (a : Addr) (s : State) : (memRead a s).2.cart = s.cart := (memRead_keeps a s).2.2.1
@[simp] theorem memRead_config (a : Addr) (s : State) : (memRead a s).2.config = s.config :=
  (memRead_keeps a s).2.2.2.1

/-- What a port read leaves of the picture unit: every memory, the control and mask bytes, `t`, `x`, the position and
the sprite flags. -/
theorem portRead_keeps (mir : Mirroring) (p : Port) (u : Ppu) :
    ∃ v w vb rb la, (portRead mir p u).2 =
      { u with v := v, w := w, vblank := vb, readBuffer := rb, latch := la } := by
  cases p
  case status => exact ⟨u.v, false, false, u.readBuffer, _, rfl⟩
  case oamData => exact ⟨u.v, u.w, u.vblank, u.readBuffer, _, rfl⟩
  case data =>
    simp only [portRead, readData]
    split
    · exact ⟨_, u.w, u.vblank, _, _, rfl⟩
    · exact ⟨_, u.w, u.vblank, _, _, rfl⟩
  all_goals exact ⟨u.v, u.w, u.vblank, u.readBuffer, u.latch, rfl⟩

/-! ## Writes -/

/-- A write to anything but the DMA trigger always completes. -/
theorem memWrite_of_ne {a : Addr} {s : State} (v : Byte) (h : a.toNat ≠ 0x4014) :
    memWrite a v s = .next (busStore a v s) := by
  unfold memWrite
  rw [if_neg]
  rw [route_dma_iff]
  exact h

/-- A write to the DMA trigger is the copy. -/
theorem memWrite_dma (v : Byte) (s : State) : memWrite 0x4014 v s = oamDma v s := by
  unfold memWrite
  rw [if_pos]
  rw [route_dma_iff]
  rfl

/-- All a write can do: a store by the routing table, or the copy of a page to OAM. -/
theorem memWrite_cases {a : Addr} {v : Byte} {s t : State} (h : memWrite a v s = .next t) :
    (a.toNat ≠ 0x4014 ∧ t = busStore a v s) ∨ (a.toNat = 0x4014 ∧ oamDma v s = .next t) := by
  unfold memWrite at h
  split at h
  · next hr => exact .inr ⟨route_dma_iff.mp hr, h⟩
  · next hr =>
    rw [route_dma_iff] at hr
    cases h
    exact .inl ⟨hr, rfl⟩

/-- What the copy does when it completes. -/
theorem oamDma_next {pg : Byte} {s t : State} (h : oamDma pg s = .next t) :
    dmaUnspecified pg = false ∧
    t = { s with ppu := { s.ppu with oam := dmaCopy s pg }, dmaCycles := s.dmaCycles + dmaCycleCost } := by
  unfold oamDma at h
  split at h
  · cases h
  · next hu =>
    cases h
    exact ⟨by simpa using hu, rfl⟩

theorem busStore_of_route_ram {a : Addr} {s : State} {i : Nat} (v : Byte) (h : route s.cart a = .ram i) :
    busStore a v s = { s with ram := Memory.set s.ram i v } := by unfold busStore; rw [h]

theorem busStore_of_route_rom {a : Addr} {s : State} {i : Nat} (v : Byte) (h : route s.cart a = .rom i) :
    busStore a v s = s := by unfold busStore; rw [h]

theorem busStore_of_route_port {a : Addr} {s : State} {p : Port} (v : Byte) (h : route s.cart a = .port p) :
    busStore a v s = { s with ppu := portWrite s.cart.mirroring p v s.ppu } := by unfold busStore; rw [h]

/-- All a store can do. -/
theorem busStore_state (a : Addr) (v : Byte) (s : State) :
    busStore a v s = s ∨
    (∃ i, i < 0x800 ∧ route s.cart a = .ram i ∧ busStore a v s = { s with ram := Memory.set s.ram i v }) ∨
    (∃ p, busStore a v s = { s with ppu := portWrite s.cart.mirroring p v s.ppu }) ∨
    busStore a v s = { s with extWrites := (a, v) :: s.extWrites } := by
  unfold busStore
  split
  · next i hi => exact .inr (.inl ⟨i, route_ram_lt hi, hi, rfl⟩)
  · next p _ => exact .inr (.inr (.inl ⟨p, rfl⟩))
  · exact .inr (.inr (.inr rfl))
  · exact .inl rfl
  · exact .inl rfl
  · exact .inl rfl

/-- A store changes no register, not the cartridge, and none of the driver's counters. -/
theorem busStore_keeps (a : Addr) (v : Byte) (s : State) :
    (busStore a v s).cpu = s.cpu ∧ (busStore a v s).cart = s.cart ∧ (busStore a v s).config = s.config ∧
    (busStore a v s).dotDebt = s.dotDebt ∧ (busStore a v s).dmaCycles = s.dmaCycles ∧
    (busStore a v s).cycles = s.cycles ∧ (busStore a v s).irqLine = s.irqLine ∧
    (busStore a v s).published = s.published ∧ (busStore a v s).draws = s.draws := by
  rcases busStore_state a v s with h | ⟨i, _, _, h⟩ | ⟨p, h⟩ | h <;> rw [h] <;>
    exact ⟨rfl, rfl, rfl, rfl, rfl, rfl, rfl, rfl, rfl⟩

@[simp] theorem busStore_cpu (a : Addr) (v : Byte) (s : State) : (busStore a v s).cpu = s.cpu :=
  (busStore_keeps a v s).1
@[simp] theorem busStore_cart (a : Addr) (v : Byte) (s : State) : (busStore a v s).cart = s.cart :=
  (busStore_keeps a v s).2.1

/-- What a port write leaves of the picture unit: the pattern and nametable bytes, the palette and OAM change only by
the data ports; the position, the status flags, the read buffer and the pixel buffer never do. -/
theorem portWrite_keeps (mir : Mirroring) (p : Port) (d : Byte) (u : Ppu) :
    (portWrite mir p d u).vblank = u.vblank ∧ (portWrite mir p d u).sprite0Hit = u.sprite0Hit ∧
    (portWrite mir p d u).spriteOverflow = u.spriteOverflow ∧ (portWrite mir p d u).readBuffer = u.readBuffer ∧
    (portWrite mir p d u).scanline = u.scanline ∧ (portWrite mir p d u).dot = u.dot ∧
    (portWrite mir p d u).frame = u.frame ∧ (portWrite mir p d u).latch = d := by
  cases p <;> simp only [portWrite, writeControl, writeMask, writeOamAddr, writeOamData, writeScroll, writeVramAddr,
    writeData, Ppu.incV, vramWrite] <;> (repeat' split) <;> simp

/-! ## Pointers and effective addresses -/

/-- A pointer in page zero lies in RAM: reading it changes nothing. -/
theorem read16ZP_eq (z : Byte) (s : State) :
    read16ZP z s = (word (Memory.get s.ram (z + 1).toNat) (Memory.get s.ram z.toNat), s) := by
  unfold read16ZP
  rw [memRead_of_route_ram (route_zeroPage _ _)]
  dsimp only
  rw [memRead_of_route_ram (route_zeroPage _ _)]

/-- Resolving an addressing mode changes nothing. -/
@[simp] theorem effAddr_state (m : AddrMode) (s : State) : (effAddr m s).2 = s := by
  cases m <;> simp only [effAddr, read16ZP_eq]

/-- A vector lies in ROM: reading it changes nothing. -/
theorem read16_rom {a : Addr} {s : State} (h : 0x8000 ≤ a.toNat) (h' : a.toNat < 0xFFFF) :
    read16 a s = (word (s.cart.romByte (a + 1)) (s.cart.romByte a), s) := by
  unfold read16
  rw [memRead_of_route_rom (route_rom h)]
  dsimp only
  rw [memRead_of_route_rom (route_rom (by rw [BitVec.toNat_add]; simp; omega))]
  rfl

/-! ## The stack -/

theorem push_eq (v : Byte) (s : State) :
    push v s = { s with ram := Memory.set s.ram (256 + s.cpu.s.toNat) v,
                        cpu := { s.cpu with s := s.cpu.s - 1 } } := by
  unfold push
  rw [busStore_of_route_ram v (route_stack _ _)]
  rfl

theorem pull_eq (s : State) :
    pull s = (Memory.get s.ram (256 + (s.cpu.s + 1).toNat), s.setS (s.cpu.s + 1)) := by
  unfold pull
  rw [memRead_of_route_ram (route_stack _ _)]
  rfl

end Sys2Proof.Machine
end

