-- ==== Sys2Proof/Laws/Ppu.lean ====
section
/-! SUPPORT. The laws of the picture unit: the video space, the ports, what one dot can do, the position, and that all of
them keep the canonical form. -/

namespace Sys2Proof.Machine

/-! ## The video space -/

theorem paletteIndex_lt (a : Nat) : paletteIndex a < 32 := by
  unfold paletteIndex
  dsimp only
  split <;> omega

theorem paletteIndex_used (a : Nat) :
    paletteIndex a ≠ 0x10 ∧ paletteIndex a ≠ 0x14 ∧ paletteIndex a ≠ 0x18 ∧ paletteIndex a ≠ 0x1C := by
  unfold paletteIndex
  dsimp only
  split <;> omega

theorem ntramIndex_lt (mir : Mirroring) (a : Nat) : ntramIndex mir a < 2048 := by
  cases mir <;> simp only [ntramIndex] <;> omega

/-- The cell a video address selects lies inside its array. -/
theorem vramCell_lt (mir : Mirroring) (a : Nat) :
    match vramCell mir a with
    | .pattern i => i < 8192
    | .ntram i => i < 2048
    | .palette i => i < 32 ∧ i ≠ 0x10 ∧ i ≠ 0x14 ∧ i ≠ 0x18 ∧ i ≠ 0x1C := by
  unfold vramCell
  dsimp only
  by_cases h1 : a % 0x4000 < 0x2000
  · rw [if_pos h1]; exact h1
  · rw [if_neg h1]
    by_cases h2 : a % 0x4000 < 0x3000
    · rw [if_pos h2]; exact ntramIndex_lt mir _
    · rw [if_neg h2]
      by_cases h3 : a % 0x4000 < 0x3F00
      · rw [if_pos h3]; exact ntramIndex_lt mir _
      · rw [if_neg h3]; exact ⟨paletteIndex_lt _, paletteIndex_used _⟩

/-- The parts of `Ppu.wf`. -/
theorem Ppu.wf_iff (u : Ppu) : u.wf = true ↔
    Memory.wf 256 u.oam ∧ Memory.wf 8192 u.pattern ∧ Memory.wf 2048 u.ntram ∧ Palette.wf u.palette ∧
    Frame.wf u.frame ∧ u.dot < dotsPerScanline ∧ u.scanline < scanlinesPerFrame := by
  simp only [Ppu.wf, Bool.and_eq_true, decide_eq_true_eq, and_assoc]

/-- A write to the video space changes one of its three arrays and nothing else. -/
theorem vramWrite_state (mir : Mirroring) (u : Ppu) (a : Nat) (d : Byte) :
    ∃ pt nt pal, vramWrite mir u a d = { u with pattern := pt, ntram := nt, palette := pal } := by
  unfold vramWrite
  split
  · exact ⟨_, u.ntram, u.palette, rfl⟩
  · exact ⟨u.pattern, _, u.palette, rfl⟩
  · exact ⟨u.pattern, u.ntram, _, rfl⟩

theorem vramWrite_wf {mir : Mirroring} {u : Ppu} (h : u.wf) (a : Nat) (d : Byte) : (vramWrite mir u a d).wf := by
  have hc := vramCell_lt mir a
  rw [Ppu.wf_iff] at h ⊢
  unfold vramWrite
  cases hv : vramCell mir a with
  | pattern i => rw [hv] at hc; exact ⟨h.1, Memory.wf_set h.2.1 hc d, h.2.2⟩
  | ntram i => rw [hv] at hc; exact ⟨h.1, h.2.1, Memory.wf_set h.2.2.1 hc d, h.2.2.2⟩
  | palette i => rw [hv] at hc; exact ⟨h.1, h.2.1, h.2.2.1, Palette.wf_set h.2.2.2.1 hc.1 hc.2 _, h.2.2.2.2⟩

/-- Read after write in the video space, through every mirror. -/
theorem vramRead_vramWrite {mir : Mirroring} {u : Ppu} (h : u.wf) (a b : Nat) (d : Byte) :
    vramRead mir (vramWrite mir u a d) b =
      if vramCell mir b = vramCell mir a then
        (match vramCell mir a with | .palette _ => (d.setWidth 6).setWidth 8 | _ => d)
      else vramRead mir u b := by
  rw [Ppu.wf_iff] at h
  unfold vramRead vramWrite
  cases ha : vramCell mir a <;> cases hb : vramCell mir b <;>
    simp only [Memory.get_set h.2.1, Memory.get_set h.2.2.1, Palette.get_set h.2.2.2.1, VramCell.pattern.injEq,
      VramCell.ntram.injEq, VramCell.palette.injEq, reduceCtorEq, if_false] <;> split <;> rfl

/-! ## The ports keep the canonical form -/

theorem portRead_wf {mir : Mirroring} {u : Ppu} (h : u.wf) (p : Port) : (portRead mir p u).2.wf := by
  obtain ⟨v, w, vb, rb, la, e⟩ := portRead_keeps mir p u
  rw [e]
  exact h

theorem portWrite_wf {mir : Mirroring} {u : Ppu} (h : u.wf) (p : Port) (d : Byte) : (portWrite mir p d u).wf := by
  cases p
  case oamData =>
    rw [Ppu.wf_iff] at h ⊢
    exact ⟨Memory.wf_set h.1 u.oamAddr.isLt d, h.2⟩
  case data => exact vramWrite_wf (u := { u with latch := d }) h _ d
  case scroll => unfold portWrite writeScroll; dsimp only; split <;> exact h
  case vramAddr => unfold portWrite writeVramAddr; dsimp only; split <;> exact h
  all_goals exact h

/-! ## One dot -/

/-- `w` differs from `u` at most in what the actions of one dot can write (47_ppu_timing_render.md R394): the pixel
buffer, `v` and the three flags. -/
def Ppu.Rendered (u w : Ppu) : Prop :=
  ∃ v vb s0 ov f, w = { u with v := v, vblank := vb, sprite0Hit := s0, spriteOverflow := ov, frame := f }

theorem Ppu.Rendered.refl (u : Ppu) : Rendered u u := ⟨u.v, u.vblank, u.sprite0Hit, u.spriteOverflow, u.frame, rfl⟩

theorem Ppu.Rendered.trans {a b c : Ppu} (h : Rendered a b) (h' : Rendered b c) : Rendered a c := by
  obtain ⟨v, vb, s0, ov, f, rfl⟩ := h
  obtain ⟨v', vb', s0', ov', f', rfl⟩ := h'
  exact ⟨v', vb', s0', ov', f', rfl⟩

theorem actVblank_rendered (u : Ppu) : Ppu.Rendered u (actVblank u) := by
  unfold actVblank; split
  · exact ⟨u.v, true, u.sprite0Hit, u.spriteOverflow, u.frame, rfl⟩
  · split
    · exact ⟨u.v, false, false, false, u.frame, rfl⟩
    · exact .refl u

theorem actOverflow_rendered (u : Ppu) : Ppu.Rendered u (actOverflow u) := by
  unfold actOverflow; split
  · exact ⟨u.v, u.vblank, u.sprite0Hit, true, u.frame, rfl⟩
  · exact .refl u

theorem actPixel_rendered (mir : Mirroring) (u : Ppu) : Ppu.Rendered u (actPixel mir u) := by
  unfold actPixel; split
  · exact ⟨u.v, u.vblank, _, u.spriteOverflow, _, rfl⟩
  · exact .refl u

theorem actCoarseX_rendered (u : Ppu) : Ppu.Rendered u (actCoarseX u) := by
  unfold actCoarseX; split
  · exact ⟨_, u.vblank, u.sprite0Hit, u.spriteOverflow, u.frame, rfl⟩
  · exact .refl u

theorem actY_rendered (u : Ppu) : Ppu.Rendered u (actY u) := by
  unfold actY; split
  · exact ⟨_, u.vblank, u.sprite0Hit, u.spriteOverflow, u.frame, rfl⟩
  · exact .refl u

theorem actHorizontal_rendered (u : Ppu) : Ppu.Rendered u (actHorizontal u) := by
  unfold actHorizontal; split
  · exact ⟨_, u.vblank, u.sprite0Hit, u.spriteOverflow, u.frame, rfl⟩
  · exact .refl u

theorem actVertical_rendered (u : Ppu) : Ppu.Rendered u (actVertical u) := by
  unfold actVertical; split
  · exact ⟨_, u.vblank, u.sprite0Hit, u.spriteOverflow, u.frame, rfl⟩
  · exact .refl u

/-- All one dot can do to the picture unit: advance, then write what the actions can write. -/
theorem Ppu.step_rendered (mir : Mirroring) (u : Ppu) : Rendered (advance u) (Ppu.step mir u) :=
  (((((((actVblank_rendered _).trans (actOverflow_rendered _)).trans (actPixel_rendered mir _)).trans
    (actCoarseX_rendered _)).trans (actY_rendered _)).trans (actHorizontal_rendered _)).trans (actVertical_rendered _))

/-- All an advance can do: the position, on by one dot. -/
theorem advance_cases (u : Ppu) :
    (u.dot ≠ 340 ∧ advance u = { u with dot := u.dot + 1 }) ∨
    (u.dot = 340 ∧ u.scanline ≠ 261 ∧ advance u = { u with dot := 0, scanline := u.scanline + 1 }) ∨
    (u.dot = 340 ∧ u.scanline = 261 ∧ advance u = { u with dot := 0, scanline := 0 }) := by
  unfold advance dotsPerScanline scanlinesPerFrame
  by_cases hd : u.dot = 340
  · by_cases hs : u.scanline = 261
    · exact .inr (.inr ⟨hd, hs, by rw [if_pos (by omega), if_pos (by omega)]⟩)
    · exact .inr (.inl ⟨hd, hs, by rw [if_pos (by omega), if_neg (by omega)]⟩)
  · exact .inl ⟨hd, by rw [if_neg (by omega)]⟩

/-- The position moves on by one dot, round the frame. -/
theorem advance_position {u : Ppu} (hd : u.dot < dotsPerScanline) (hs : u.scanline < scanlinesPerFrame) :
    (advance u).dot < dotsPerScanline ∧ (advance u).scanline < scanlinesPerFrame ∧
    (advance u).position = (u.position + 1) % dotsPerFrame := by
  simp only [dotsPerScanline, scanlinesPerFrame] at hd hs
  unfold Ppu.position
  simp only [dotsPerScanline, scanlinesPerFrame, dotsPerFrame]
  rcases advance_cases u with ⟨h, e⟩ | ⟨h, h', e⟩ | ⟨h, h', e⟩ <;> rw [e]
  · dsimp only; omega
  · dsimp only; omega
  · rw [h, h']; simp

theorem actVblank_frame (u : Ppu) : (actVblank u).frame = u.frame := by
  unfold actVblank; repeat' split
  all_goals rfl

theorem actOverflow_frame (u : Ppu) : (actOverflow u).frame = u.frame := by unfold actOverflow; split <;> rfl

/-- The actions after the pixel leave the pixel buffer alone. -/
theorem actVertical_frame (u : Ppu) :
    (actVertical (actHorizontal (actY (actCoarseX u)))).frame = u.frame := by
  have h1 : ∀ w : Ppu, (actVertical w).frame = w.frame := fun w => by unfold actVertical; split <;> rfl
  have h2 : ∀ w : Ppu, (actHorizontal w).frame = w.frame := fun w => by unfold actHorizontal; split <;> rfl
  have h3 : ∀ w : Ppu, (actY w).frame = w.frame := fun w => by unfold actY; split <;> rfl
  have h4 : ∀ w : Ppu, (actCoarseX w).frame = w.frame := fun w => by unfold actCoarseX; split <;> rfl
  rw [h1, h2, h3, h4]

/-- The pixel action keeps the form of the pixel buffer. -/
theorem actPixel_frame_wf {mir : Mirroring} {u : Ppu} (h : Frame.wf u.frame) : Frame.wf (actPixel mir u).frame := by
  unfold actPixel
  split
  · next hp =>
    have hv := hp.1
    simp only [Ppu.visible, decide_eq_true_eq] at hv
    exact Frame.wf_set h (by omega) (by omega) _
  · exact h

/-- One dot keeps the canonical form and the position legal. -/
theorem Ppu.step_wf {mir : Mirroring} {u : Ppu} (h : u.wf) : (Ppu.step mir u).wf := by
  have h' := (Ppu.wf_iff u).mp h
  obtain ⟨hd, hs, -⟩ := advance_position h'.2.2.2.2.2.1 h'.2.2.2.2.2.2
  have ha : (advance u).oam = u.oam ∧ (advance u).pattern = u.pattern ∧ (advance u).ntram = u.ntram ∧
      (advance u).palette = u.palette ∧ (advance u).frame = u.frame := by
    rcases advance_cases u with ⟨-, e⟩ | ⟨-, -, e⟩ | ⟨-, -, e⟩ <;> rw [e] <;> exact ⟨rfl, rfl, rfl, rfl, rfl⟩
  have hf : Frame.wf (Ppu.step mir u).frame := by
    unfold Ppu.step
    rw [actVertical_frame]
    apply actPixel_frame_wf
    rw [actOverflow_frame, actVblank_frame, ha.2.2.2.2]
    exact h'.2.2.2.2.1
  obtain ⟨v, vb, s0, ov, f, e⟩ := Ppu.step_rendered mir u
  rw [e] at hf ⊢
  rw [Ppu.wf_iff]
  dsimp only at hf ⊢
  rw [ha.1, ha.2.1, ha.2.2.1, ha.2.2.2.1]
  exact ⟨h'.1, h'.2.1, h'.2.2.1, h'.2.2.2.1, hf, hd, hs⟩

theorem Ppu.step_position {mir : Mirroring} {u : Ppu} (h : u.wf) :
    (Ppu.step mir u).position = (u.position + 1) % dotsPerFrame := by
  have h' := (Ppu.wf_iff u).mp h
  obtain ⟨v, vb, s0, ov, f, e⟩ := Ppu.step_rendered mir u
  rw [e]
  exact (advance_position h'.2.2.2.2.2.1 h'.2.2.2.2.2.2).2.2

theorem Ppu.position_lt {u : Ppu} (h : u.wf) : u.position < dotsPerFrame := by
  have h' := (Ppu.wf_iff u).mp h
  have h1 := h'.2.2.2.2.2.1
  have h2 := h'.2.2.2.2.2.2
  unfold Ppu.position
  simp only [dotsPerFrame, dotsPerScanline, scanlinesPerFrame] at *
  omega

/-! ## Runs of dots -/

@[simp] theorem dotStep_ppu (s : State) : (dotStep s).ppu = Ppu.step s.cart.mirroring s.ppu := by
  simp only [dotStep]

/-- A dot touches the picture unit and the NMI latch only. -/
theorem dotStep_state (s : State) :
    ∃ n, dotStep s = { s with ppu := Ppu.step s.cart.mirroring s.ppu, cpu := { s.cpu with nmiPending := n } } :=
  ⟨_, rfl⟩

/-- A run of dots touches the picture unit and the NMI latch only; a pending NMI stays pending. -/
theorem runDots_state (k : Nat) (s : State) :
    ∃ u n, runDots k s = { s with ppu := u, cpu := { s.cpu with nmiPending := n } } ∧
      (s.cpu.nmiPending = true → n = true) := by
  induction k generalizing s with
  | zero => exact ⟨s.ppu, s.cpu.nmiPending, rfl, id⟩
  | succ k ih =>
    obtain ⟨u, n, h, hn⟩ := ih (dotStep s)
    exact ⟨u, n, h, fun hp => hn (by simp [dotStep, hp])⟩

theorem runDots_wf {k : Nat} {s : State} (h : s.ppu.wf) : (runDots k s).ppu.wf := by
  induction k generalizing s with
  | zero => exact h
  | succ k ih => exact ih (by rw [dotStep_ppu]; exact Ppu.step_wf h)

theorem runDots_position {k : Nat} {s : State} (h : s.ppu.wf) :
    (runDots k s).ppu.position = (s.ppu.position + k) % dotsPerFrame := by
  induction k generalizing s with
  | zero => rw [Nat.add_zero, Nat.mod_eq_of_lt (Ppu.position_lt h)]; rfl
  | succ k ih =>
    have hw : (dotStep s).ppu.wf := by rw [dotStep_ppu]; exact Ppu.step_wf h
    have hp : (dotStep s).ppu.position = (s.ppu.position + 1) % dotsPerFrame := by
      rw [dotStep_ppu]; exact Ppu.step_position h
    rw [runDots, ih hw, hp, Nat.mod_add_mod, Nat.add_assoc, Nat.add_comm 1 k]

theorem runDots_add (j k : Nat) (s : State) : runDots (j + k) s = runDots k (runDots j s) := by
  induction j generalizing s with
  | zero => rw [Nat.zero_add]; rfl
  | succ j ih => rw [Nat.succ_add]; exact ih (dotStep s)

@[simp] theorem runDots_ram (k : Nat) (s : State) : (runDots k s).ram = s.ram := by
  obtain ⟨u, n, h, -⟩ := runDots_state k s; rw [h]
@[simp] theorem runDots_cart (k : Nat) (s : State) : (runDots k s).cart = s.cart := by
  obtain ⟨u, n, h, -⟩ := runDots_state k s; rw [h]
@[simp] theorem runDots_config (k : Nat) (s : State) : (runDots k s).config = s.config := by
  obtain ⟨u, n, h, -⟩ := runDots_state k s; rw [h]
@[simp] theorem runDots_irqLine (k : Nat) (s : State) : (runDots k s).irqLine = s.irqLine := by
  obtain ⟨u, n, h, -⟩ := runDots_state k s; rw [h]
@[simp] theorem runDots_cycles (k : Nat) (s : State) : (runDots k s).cycles = s.cycles := by
  obtain ⟨u, n, h, -⟩ := runDots_state k s; rw [h]
@[simp] theorem runDots_dmaCycles (k : Nat) (s : State) : (runDots k s).dmaCycles = s.dmaCycles := by
  obtain ⟨u, n, h, -⟩ := runDots_state k s; rw [h]
@[simp] theorem runDots_dotDebt (k : Nat) (s : State) : (runDots k s).dotDebt = s.dotDebt := by
  obtain ⟨u, n, h, -⟩ := runDots_state k s; rw [h]
@[simp] theorem runDots_halted (k : Nat) (s : State) : (runDots k s).cpu.halted = s.cpu.halted := by
  obtain ⟨u, n, h, -⟩ := runDots_state k s; rw [h]

end Sys2Proof.Machine
end

