-- ==== Sys2Proof/Laws/Exec.lean ====
section
/-! SUPPORT. What an instruction can do, said once. The three access classes as equations; the interrupt entry and
return as equations; and `Kept`: a relation that every basic operation keeps is kept by every instruction, by the
instruction fetch and by the interrupt entries. -/

namespace Sys2Proof.Machine

/-! ## The access classes -/

theorem readSource_memory (m : AddrMode) (s : State) :
    readSource (.memory m) s =
      { value := (memRead (effAddr m s).1.addr s).1, crossed := (effAddr m s).1.crossed,
        state := (memRead (effAddr m s).1.addr s).2 } := by
  simp only [readSource, effAddr_state]

theorem readClass_immediate (f : Byte → State → State) (b : Byte) (c : Cost) (s : State) :
    readClass f (.immediate b) c s = .next ((f b s).charge (c.total false)) := rfl

theorem readClass_memory (f : Byte → State → State) (m : AddrMode) (c : Cost) (s : State) :
    readClass f (.memory m) c s =
      .next ((f (memRead (effAddr m s).1.addr s).1 (memRead (effAddr m s).1.addr s).2).charge
        (c.total (effAddr m s).1.crossed)) := by
  simp only [readClass, readSource_memory]

theorem writeClass_eq (f : State → Byte) (m : AddrMode) (n : Nat) (s : State) :
    writeClass f m n s =
      Result.andThen (memWrite (effAddr m s).1.addr (f s) s) fun s => .next (s.charge n) := by
  simp only [writeClass, effAddr_state]

theorem rmwClass_eq (f : Byte → State → Byte × State) (g : Byte → State → State) (m : AddrMode) (n : Nat) (s : State) :
    rmwClass f g m n s =
      Result.andThen
        (memWrite (effAddr m s).1.addr
          (f (memRead (effAddr m s).1.addr s).1 (memRead (effAddr m s).1.addr s).2).1
          (f (memRead (effAddr m s).1.addr s).1 (memRead (effAddr m s).1.addr s).2).2)
        fun t => .next ((g (f (memRead (effAddr m s).1.addr s).1 (memRead (effAddr m s).1.addr s).2).1 t).charge n) := by
  simp only [rmwClass, effAddr_state]

/-- A store away from the DMA trigger completes. -/
theorem writeClass_of_ne (f : State → Byte) (m : AddrMode) (n : Nat) (s : State)
    (h : (effAddr m s).1.addr.toNat ≠ 0x4014) :
    writeClass f m n s = .next ((busStore (effAddr m s).1.addr (f s) s).charge n) := by
  rw [writeClass_eq, memWrite_of_ne _ h, Result.andThen_next]

/-- A read-modify-write away from the DMA trigger completes. -/
theorem rmwClass_of_ne (f : Byte → State → Byte × State) (g : Byte → State → State) (m : AddrMode) (n : Nat) (s : State)
    (h : (effAddr m s).1.addr.toNat ≠ 0x4014) :
    rmwClass f g m n s =
      .next ((g (f (memRead (effAddr m s).1.addr s).1 (memRead (effAddr m s).1.addr s).2).1
        (busStore (effAddr m s).1.addr
          (f (memRead (effAddr m s).1.addr s).1 (memRead (effAddr m s).1.addr s).2).1
          (f (memRead (effAddr m s).1.addr s).1 (memRead (effAddr m s).1.addr s).2).2)).charge n) := by
  rw [rmwClass_eq, memWrite_of_ne _ h, Result.andThen_next]

/-! ## The interrupt entry and return -/

/-- The entry through a vector in ROM: three stack bytes, the stack pointer, two flags and the program counter. -/
theorem enter_eq (vec : Addr) (b : Bool) (s : State) (h : 0x8000 ≤ vec.toNat) (h' : vec.toNat < 0xFFFF) :
    enter vec b s =
      { s with
        ram := Memory.set (Memory.set (Memory.set s.ram (256 + s.cpu.s.toNat) (hi8 s.cpu.pc))
            (256 + (s.cpu.s - 1).toNat) (lo8 s.cpu.pc)) (256 + (s.cpu.s - 1 - 1).toNat) (s.cpu.p.pack b),
        cpu := { s.cpu with s := s.cpu.s - 1 - 1 - 1, p := { s.cpu.p with b := b, i := true },
                            pc := word (s.cart.romByte (vec + 1)) (s.cart.romByte vec) } } := by
  unfold enter
  simp only [push_eq, read16_rom h h']
  rfl

/-- The return: the status byte, then the exact address. -/
theorem leave_eq (s : State) :
    leave s =
      { s with cpu := { s.cpu with
          s := s.cpu.s + 1 + 1 + 1,
          p := Flags.unpack (Memory.get s.ram (256 + (s.cpu.s + 1).toNat)),
          pc := word (Memory.get s.ram (256 + (s.cpu.s + 1 + 1 + 1).toNat))
            (Memory.get s.ram (256 + (s.cpu.s + 1 + 1).toNat)) } } := by
  unfold leave
  simp only [pull_eq]
  rfl

/-! ## What every basic operation keeps -/

/-- A relation between a state and a later one that every basic operation of an instruction keeps. -/
structure Kept (R : State → State → Prop) : Prop where
  refl : ∀ s, R s s
  trans : ∀ {s t u}, R s t → R t u → R s u
  /-- A change of the CPU's registers and flags; not of the NMI latch, not of the halt. -/
  regs : ∀ (s : State) (c : Cpu), c.nmiPending = s.cpu.nmiPending → c.halted = s.cpu.halted → R s { s with cpu := c }
  charge : ∀ (s : State) n, R s (s.charge n)
  read : ∀ (s : State) a, R s (memRead a s).2
  store : ∀ (s : State) a v, R s (busStore a v s)
  dma : ∀ (s t : State) pg, oamDma pg s = .next t → R s t

namespace Kept
variable {R : State → State → Prop} (K : Kept R)
include K

theorem setA (s : State) v : R s (s.setA v) := K.regs s { s.cpu with a := v } rfl rfl
theorem setX (s : State) v : R s (s.setX v) := K.regs s { s.cpu with x := v } rfl rfl
theorem setY (s : State) v : R s (s.setY v) := K.regs s { s.cpu with y := v } rfl rfl
theorem setS (s : State) v : R s (s.setS v) := K.regs s { s.cpu with s := v } rfl rfl
theorem setPc (s : State) w : R s (s.setPc w) := K.regs s { s.cpu with pc := w } rfl rfl
theorem setP (s : State) p : R s (s.setP p) := K.regs s { s.cpu with p := p } rfl rfl
theorem setNZ (s : State) v : R s (s.setNZ v) := K.setP s _

theorem write {a v} {s t : State} (h : memWrite a v s = .next t) : R s t := by
  rcases memWrite_cases h with ⟨-, rfl⟩ | ⟨-, h⟩
  · exact K.store s a v
  · exact K.dma s t v h

theorem push (s : State) v : R s (push v s) := K.trans (K.store s _ v) (K.setS _ _)
theorem pull (s : State) : R s (pull s).2 := K.trans (K.setS s _) (K.read _ _)
theorem read16 (s : State) a : R s (read16 a s).2 := K.trans (K.read s a) (K.read _ _)
theorem read16Bug (s : State) a : R s (read16Bug a s).2 := K.trans (K.read s a) (K.read _ _)
theorem fetch8 (s : State) : R s (fetch8 s).2 := K.trans (K.read s _) (K.setPc _ _)
theorem fetch16 (s : State) : R s (fetch16 s).2 := K.trans (K.fetch8 s) (K.fetch8 _)

theorem enter (vec : Addr) (b : Bool) (s : State) : R s (enter vec b s) :=
  K.trans (K.trans (K.trans (K.trans (K.trans (K.trans (K.setP s _) (K.push _ _)) (K.push _ _)) (K.push _ _))
    (K.setP _ _)) (K.read16 _ _)) (K.setPc _ _)

theorem leave (s : State) : R s (leave s) :=
  K.trans (K.trans (K.trans (K.trans (K.pull s) (K.setP _ _)) (K.pull _)) (K.pull _)) (K.setPc _ _)

/-- The fetch of an instruction keeps `R`. -/
theorem fetchInstr (s : State) : R s (fetchInstr s).2 := by
  unfold Machine.fetchInstr
  dsimp only
  split
  · exact K.fetch8 s
  · exact K.trans (K.fetch8 s) (K.fetch8 _)
  · exact K.trans (K.fetch8 s) (K.fetch16 _)

/-! ### The effects -/

theorem loadA (m : Byte) (s : State) : R s (loadA m s) := K.trans (K.setA s m) (K.setNZ _ m)
theorem loadX (m : Byte) (s : State) : R s (loadX m s) := K.trans (K.setX s m) (K.setNZ _ m)
theorem loadY (m : Byte) (s : State) : R s (loadY m s) := K.trans (K.setY s m) (K.setNZ _ m)
theorem andA (m : Byte) (s : State) : R s (andA m s) := K.loadA _ s
theorem oraA (m : Byte) (s : State) : R s (oraA m s) := K.loadA _ s
theorem eorA (m : Byte) (s : State) : R s (eorA m s) := K.loadA _ s
theorem bitA (m : Byte) (s : State) : R s (bitA m s) := K.setP s _
theorem compareA (m : Byte) (s : State) : R s (compareA m s) := K.setP s _
theorem compareX (m : Byte) (s : State) : R s (compareX m s) := K.setP s _
theorem compareY (m : Byte) (s : State) : R s (compareY m s) := K.setP s _
theorem storeSum (r : Sum) (s : State) : R s (storeSum r s) := K.trans (K.setA s _) (K.setP _ _)
theorem addA (m : Byte) (s : State) : R s (addA m s) := K.storeSum _ s
theorem subtractA (m : Byte) (s : State) : R s (subtractA m s) := K.storeSum _ s
theorem loadAX (m : Byte) (s : State) : R s (loadAX m s) :=
  K.trans (K.trans (K.setA s m) (K.setX _ m)) (K.setNZ _ m)
theorem shiftLeft (m : Byte) (s : State) : R s (shiftLeft m s).2 := K.setP s _
theorem shiftRight (m : Byte) (s : State) : R s (shiftRight m s).2 := K.setP s _
theorem rotateLeft (m : Byte) (s : State) : R s (rotateLeft m s).2 := K.setP s _
theorem rotateRight (m : Byte) (s : State) : R s (rotateRight m s).2 := K.setP s _
theorem increment (m : Byte) (s : State) : R s (increment m s).2 := K.setNZ s _
theorem decrement (m : Byte) (s : State) : R s (decrement m s).2 := K.setNZ s _
theorem keep (r : Byte) (s : State) : R s (keep r s) := K.refl s
theorem stepX (k : Byte) (s : State) : R s (stepX k s) := K.loadX _ s
theorem stepY (k : Byte) (s : State) : R s (stepY k s) := K.loadY _ s
theorem transferAX (s : State) : R s (transferAX s) := K.loadX _ s
theorem transferAY (s : State) : R s (transferAY s) := K.loadY _ s
theorem transferXA (s : State) : R s (transferXA s) := K.loadA _ s
theorem transferYA (s : State) : R s (transferYA s) := K.loadA _ s
theorem transferSX (s : State) : R s (transferSX s) := K.loadX _ s
theorem transferXS (s : State) : R s (transferXS s) := K.setS s _
theorem pushA (s : State) : R s (pushA s) := K.push s _
theorem pullA (s : State) : R s (pullA s) := K.trans (K.pull s) (K.loadA _ _)
theorem pushP (s : State) : R s (pushP s) := K.push s _
theorem pullP (s : State) : R s (pullP s) := K.trans (K.pull s) (K.setP _ _)
theorem jumpIndirect (ptr : Addr) (s : State) : R s (jumpIndirect ptr s) := K.trans (K.read16Bug s ptr) (K.setPc _ _)
theorem callSub (w : Addr) (s : State) : R s (callSub w s) :=
  K.trans (K.trans (K.push s _) (K.push _ _)) (K.setPc _ _)
theorem returnSub (s : State) : R s (returnSub s) := K.trans (K.trans (K.pull s) (K.pull _)) (K.setPc _ _)
theorem softwareInterrupt (s : State) : R s (softwareInterrupt s) := by
  unfold Machine.softwareInterrupt
  split
  · exact K.refl s
  · exact K.trans (K.setPc s _) (K.enter _ _ _)

/-! ### The classes -/

theorem readClass {f : Byte → State → State} (hf : ∀ m s, R s (f m s)) {src : Source} {c : Cost} {s t : State}
    (h : readClass f src c s = .next t) : R s t := by
  cases src with
  | immediate b => cases h; exact K.trans (hf b s) (K.charge _ _)
  | memory m =>
    rw [readClass_memory] at h
    cases h
    exact K.trans (K.trans (K.read s _) (hf _ _)) (K.charge _ _)

theorem writeClass {f : State → Byte} {m : AddrMode} {n : Nat} {s t : State} (h : writeClass f m n s = .next t) :
    R s t := by
  rw [writeClass_eq, Result.andThen_eq_next] at h
  obtain ⟨u, hu, h⟩ := h
  cases h
  exact K.trans (K.write hu) (K.charge _ _)

theorem rmwClass {f : Byte → State → Byte × State} {g : Byte → State → State} (hf : ∀ m s, R s (f m s).2)
    (hg : ∀ r s, R s (g r s)) {m : AddrMode} {n : Nat} {s t : State} (h : rmwClass f g m n s = .next t) : R s t := by
  rw [rmwClass_eq, Result.andThen_eq_next] at h
  obtain ⟨u, hu, h⟩ := h
  cases h
  exact K.trans (K.trans (K.trans (K.trans (K.read s _) (hf _ _)) (K.write hu)) (hg _ _)) (K.charge _ _)

theorem accClass {f : Byte → State → Byte × State} (hf : ∀ m s, R s (f m s).2) {n : Nat} {s t : State}
    (h : accClass f n s = .next t) : R s t := by
  cases h
  exact K.trans (K.trans (hf _ s) (K.setA _ _)) (K.charge _ _)

theorem impliedClass {f : State → State} (hf : ∀ s, R s (f s)) {n : Nat} {s t : State}
    (h : impliedClass f n s = .next t) : R s t := by
  cases h
  exact K.trans (hf s) (K.charge _ _)

theorem branchClass {cond : Flags → Bool} {d : Byte} {s t : State} (h : branchClass cond d s = .next t) : R s t := by
  unfold Machine.branchClass at h
  split at h <;> cases h
  · exact K.trans (K.setPc s _) (K.charge _ _)
  · exact K.charge s _

theorem nopIndexed {w : Addr} {c : Cost} {s t : State} (h : nopIndexed w c s = .next t) : R s t := by
  cases h
  exact K.charge s _

/-- Every instruction that completes keeps `R`. -/
theorem exec {i : Instr} {s t : State} (h : exec i s = .next t) : R s t := by
  cases i with
  | brk => exact K.impliedClass K.softwareInterrupt h
  | oraIndexIndirect b => exact K.readClass K.oraA h
  | sloIndexIndirect b => exact K.rmwClass K.shiftLeft K.oraA h
  | nop04 b => exact K.impliedClass K.refl h
  | oraZeropage b => exact K.readClass K.oraA h
  | aslZeropage b => exact K.rmwClass K.shiftLeft K.keep h
  | sloZeropage b => exact K.rmwClass K.shiftLeft K.oraA h
  | php => exact K.impliedClass K.pushP h
  | oraImmediate b => exact K.readClass K.oraA h
  | aslAccumulator => exact K.accClass K.shiftLeft h
  | nop0C w => exact K.impliedClass K.refl h
  | oraAbsolute w => exact K.readClass K.oraA h
  | aslAbsolute w => exact K.rmwClass K.shiftLeft K.keep h
  | sloAbsolute w => exact K.rmwClass K.shiftLeft K.oraA h
  | bpl d => exact K.branchClass (cond := fun p => !p.n) h
  | oraIndirectIndex b => exact K.readClass K.oraA h
  | sloIndirectIndex b => exact K.rmwClass K.shiftLeft K.oraA h
  | nop14 b => exact K.impliedClass K.refl h
  | oraZeropageX b => exact K.readClass K.oraA h
  | aslZeropageX b => exact K.rmwClass K.shiftLeft K.keep h
  | sloZeropageX b => exact K.rmwClass K.shiftLeft K.oraA h
  | clc => exact K.impliedClass (fun s => K.setP s _) h
  | oraAbsoluteY w => exact K.readClass K.oraA h
  | nop1A => exact K.impliedClass K.refl h
  | sloAbsoluteY w => exact K.rmwClass K.shiftLeft K.oraA h
  | nop1C w => exact K.nopIndexed h
  | oraAbsoluteX w => exact K.readClass K.oraA h
  | aslAbsoluteX w => exact K.rmwClass K.shiftLeft K.keep h
  | sloAbsoluteX w => exact K.rmwClass K.shiftLeft K.oraA h
  | jsr w => exact K.impliedClass (K.callSub w) h
  | andIndexIndirect b => exact K.readClass K.andA h
  | rlaIndexIndirect b => exact K.rmwClass K.rotateLeft K.andA h
  | bitZeropage b => exact K.readClass K.bitA h
  | andZeropage b => exact K.readClass K.andA h
  | rolZeropage b => exact K.rmwClass K.rotateLeft K.keep h
  | rlaZeropage b => exact K.rmwClass K.rotateLeft K.andA h
  | plp => exact K.impliedClass K.pullP h
  | andImmediate b => exact K.readClass K.andA h
  | rolAccumulator => exact K.accClass K.rotateLeft h
  | bitAbsolute w => exact K.readClass K.bitA h
  | andAbsolute w => exact K.readClass K.andA h
  | rolAbsolute w => exact K.rmwClass K.rotateLeft K.keep h
  | rlaAbsolute w => exact K.rmwClass K.rotateLeft K.andA h
  | bmi d => exact K.branchClass (cond := fun p => p.n) h
  | andIndirectIndex b => exact K.readClass K.andA h
  | rlaIndirectIndex b => exact K.rmwClass K.rotateLeft K.andA h
  | nop34 b => exact K.impliedClass K.refl h
  | andZeropageX b => exact K.readClass K.andA h
  | rolZeropageX b => exact K.rmwClass K.rotateLeft K.keep h
  | rlaZeropageX b => exact K.rmwClass K.rotateLeft K.andA h
  | sec => exact K.impliedClass (fun s => K.setP s _) h
  | andAbsoluteY w => exact K.readClass K.andA h
  | nop3A => exact K.impliedClass K.refl h
  | rlaAbsoluteY w => exact K.rmwClass K.rotateLeft K.andA h
  | nop3C w => exact K.nopIndexed h
  | andAbsoluteX w => exact K.readClass K.andA h
  | rolAbsoluteX w => exact K.rmwClass K.rotateLeft K.keep h
  | rlaAbsoluteX w => exact K.rmwClass K.rotateLeft K.andA h
  | rti => exact K.impliedClass K.leave h
  | eorIndexIndirect b => exact K.readClass K.eorA h
  | sreIndexIndirect b => exact K.rmwClass K.shiftRight K.eorA h
  | nop44 b => exact K.impliedClass K.refl h
  | eorZeropage b => exact K.readClass K.eorA h
  | lsrZeropage b => exact K.rmwClass K.shiftRight K.keep h
  | sreZeropage b => exact K.rmwClass K.shiftRight K.eorA h
  | pha => exact K.impliedClass K.pushA h
  | eorImmediate b => exact K.readClass K.eorA h
  | lsrAccumulator => exact K.accClass K.shiftRight h
  | jmpAbsolute w => exact K.impliedClass (fun s => K.setPc s _) h
  | eorAbsolute w => exact K.readClass K.eorA h
  | lsrAbsolute w => exact K.rmwClass K.shiftRight K.keep h
  | sreAbsolute w => exact K.rmwClass K.shiftRight K.eorA h
  | bvc d => exact K.branchClass (cond := fun p => !p.v) h
  | eorIndirectIndex b => exact K.readClass K.eorA h
  | sreIndirectIndex b => exact K.rmwClass K.shiftRight K.eorA h
  | nop54 b => exact K.impliedClass K.refl h
  | eorZeropageX b => exact K.readClass K.eorA h
  | lsrZeropageX b => exact K.rmwClass K.shiftRight K.keep h
  | sreZeropageX b => exact K.rmwClass K.shiftRight K.eorA h
  | cli => exact K.impliedClass (fun s => K.setP s _) h
  | eorAbsoluteY w => exact K.readClass K.eorA h
  | nop5A => exact K.impliedClass K.refl h
  | sreAbsoluteY w => exact K.rmwClass K.shiftRight K.eorA h
  | nop5C w => exact K.nopIndexed h
  | eorAbsoluteX w => exact K.readClass K.eorA h
  | lsrAbsoluteX w => exact K.rmwClass K.shiftRight K.keep h
  | sreAbsoluteX w => exact K.rmwClass K.shiftRight K.eorA h
  | rts => exact K.impliedClass K.returnSub h
  | adcIndexIndirect b => exact K.readClass K.addA h
  | rraIndexIndirect b => exact K.rmwClass K.rotateRight K.addA h
  | nop64 b => exact K.impliedClass K.refl h
  | adcZeropage b => exact K.readClass K.addA h
  | rorZeropage b => exact K.rmwClass K.rotateRight K.keep h
  | rraZeropage b => exact K.rmwClass K.rotateRight K.addA h
  | pla => exact K.impliedClass K.pullA h
  | adcImmediate b => exact K.readClass K.addA h
  | rorAccumulator => exact K.accClass K.rotateRight h
  | jmpIndirect w => exact K.impliedClass (K.jumpIndirect w) h
  | adcAbsolute w => exact K.readClass K.addA h
  | rorAbsolute w => exact K.rmwClass K.rotateRight K.keep h
  | rraAbsolute w => exact K.rmwClass K.rotateRight K.addA h
  | bvs d => exact K.branchClass (cond := fun p => p.v) h
  | adcIndirectIndex b => exact K.readClass K.addA h
  | rraIndirectIndex b => exact K.rmwClass K.rotateRight K.addA h
  | nop74 b => exact K.impliedClass K.refl h
  | adcZeropageX b => exact K.readClass K.addA h
  | rorZeropageX b => exact K.rmwClass K.rotateRight K.keep h
  | rraZeropageX b => exact K.rmwClass K.rotateRight K.addA h
  | sei => exact K.impliedClass (fun s => K.setP s _) h
  | adcAbsoluteY w => exact K.readClass K.addA h
  | nop7A => exact K.impliedClass K.refl h
  | rraAbsoluteY w => exact K.rmwClass K.rotateRight K.addA h
  | nop7C w => exact K.nopIndexed h
  | adcAbsoluteX w => exact K.readClass K.addA h
  | rorAbsoluteX w => exact K.rmwClass K.rotateRight K.keep h
  | rraAbsoluteX w => exact K.rmwClass K.rotateRight K.addA h
  | nop80 b => exact K.impliedClass K.refl h
  | staIndexIndirect b => exact K.writeClass h
  | nop82 b => exact K.impliedClass K.refl h
  | saxIndexIndirect b => exact K.writeClass h
  | styZeropage b => exact K.writeClass h
  | staZeropage b => exact K.writeClass h
  | stxZeropage b => exact K.writeClass h
  | saxZeropage b => exact K.writeClass h
  | dey => exact K.impliedClass (K.stepY (-1)) h
  | nop89 b => exact K.impliedClass K.refl h
  | txa => exact K.impliedClass K.transferXA h
  | styAbsolute w => exact K.writeClass h
  | staAbsolute w => exact K.writeClass h
  | stxAbsolute w => exact K.writeClass h
  | saxAbsolute w => exact K.writeClass h
  | bcc d => exact K.branchClass (cond := fun p => !p.c) h
  | staIndirectIndex b => exact K.writeClass h
  | styZeropageX b => exact K.writeClass h
  | staZeropageX b => exact K.writeClass h
  | stxZeropageY b => exact K.writeClass h
  | saxZeropageY b => exact K.writeClass h
  | tya => exact K.impliedClass K.transferYA h
  | staAbsoluteY w => exact K.writeClass h
  | txs => exact K.impliedClass K.transferXS h
  | staAbsoluteX w => exact K.writeClass h
  | ldyImmediate b => exact K.readClass K.loadY h
  | ldaIndexIndirect b => exact K.readClass K.loadA h
  | ldxImmediate b => exact K.readClass K.loadX h
  | laxIndexIndirect b => exact K.readClass K.loadAX h
  | ldyZeropage b => exact K.readClass K.loadY h
  | ldaZeropage b => exact K.readClass K.loadA h
  | ldxZeropage b => exact K.readClass K.loadX h
  | laxZeropage b => exact K.readClass K.loadAX h
  | tay => exact K.impliedClass K.transferAY h
  | ldaImmediate b => exact K.readClass K.loadA h
  | tax => exact K.impliedClass K.transferAX h
  | ldyAbsolute w => exact K.readClass K.loadY h
  | ldaAbsolute w => exact K.readClass K.loadA h
  | ldxAbsolute w => exact K.readClass K.loadX h
  | laxAbsolute w => exact K.readClass K.loadAX h
  | bcs d => exact K.branchClass (cond := fun p => p.c) h
  | ldaIndirectIndex b => exact K.readClass K.loadA h
  | laxIndirectIndex b => exact K.readClass K.loadAX h
  | ldyZeropageX b => exact K.readClass K.loadY h
  | ldaZeropageX b => exact K.readClass K.loadA h
  | ldxZeropageY b => exact K.readClass K.loadX h
  | laxZeropageY b => exact K.readClass K.loadAX h
  | clv => exact K.impliedClass (fun s => K.setP s _) h
  | ldaAbsoluteY w => exact K.readClass K.loadA h
  | tsx => exact K.impliedClass K.transferSX h
  | ldyAbsoluteX w => exact K.readClass K.loadY h
  | ldaAbsoluteX w => exact K.readClass K.loadA h
  | ldxAbsoluteY w => exact K.readClass K.loadX h
  | laxAbsoluteY w => exact K.readClass K.loadAX h
  | cpyImmediate b => exact K.readClass K.compareY h
  | cmpIndexIndirect b => exact K.readClass K.compareA h
  | nopC2 b => exact K.impliedClass K.refl h
  | dcpIndexIndirect b => exact K.rmwClass K.decrement K.compareA h
  | cpyZeropage b => exact K.readClass K.compareY h
  | cmpZeropage b => exact K.readClass K.compareA h
  | decZeropage b => exact K.rmwClass K.decrement K.keep h
  | dcpZeropage b => exact K.rmwClass K.decrement K.compareA h
  | iny => exact K.impliedClass (K.stepY 1) h
  | cmpImmediate b => exact K.readClass K.compareA h
  | dex => exact K.impliedClass (K.stepX (-1)) h
  | cpyAbsolute w => exact K.readClass K.compareY h
  | cmpAbsolute w => exact K.readClass K.compareA h
  | decAbsolute w => exact K.rmwClass K.decrement K.keep h
  | dcpAbsolute w => exact K.rmwClass K.decrement K.compareA h
  | bne d => exact K.branchClass (cond := fun p => !p.z) h
  | cmpIndirectIndex b => exact K.readClass K.compareA h
  | dcpIndirectIndex b => exact K.rmwClass K.decrement K.compareA h
  | nopD4 b => exact K.impliedClass K.refl h
  | cmpZeropageX b => exact K.readClass K.compareA h
  | decZeropageX b => exact K.rmwClass K.decrement K.keep h
  | dcpZeropageX b => exact K.rmwClass K.decrement K.compareA h
  | cld => exact K.impliedClass (fun s => K.setP s _) h
  | cmpAbsoluteY w => exact K.readClass K.compareA h
  | nopDA => exact K.impliedClass K.refl h
  | dcpAbsoluteY w => exact K.rmwClass K.decrement K.compareA h
  | nopDC w => exact K.nopIndexed h
  | cmpAbsoluteX w => exact K.readClass K.compareA h
  | decAbsoluteX w => exact K.rmwClass K.decrement K.keep h
  | dcpAbsoluteX w => exact K.rmwClass K.decrement K.compareA h
  | cpxImmediate b => exact K.readClass K.compareX h
  | sbcIndexIndirect b => exact K.readClass K.subtractA h
  | nopE2 b => exact K.impliedClass K.refl h
  | iscIndexIndirect b => exact K.rmwClass K.increment K.subtractA h
  | cpxZeropage b => exact K.readClass K.compareX h
  | sbcZeropage b => exact K.readClass K.subtractA h
  | incZeropage b => exact K.rmwClass K.increment K.keep h
  | iscZeropage b => exact K.rmwClass K.increment K.subtractA h
  | inx => exact K.impliedClass (K.stepX 1) h
  | sbcImmediate b => exact K.readClass K.subtractA h
  | nop => exact K.impliedClass K.refl h
  | sbcImmediateEB b => exact K.readClass K.subtractA h
  | cpxAbsolute w => exact K.readClass K.compareX h
  | sbcAbsolute w => exact K.readClass K.subtractA h
  | incAbsolute w => exact K.rmwClass K.increment K.keep h
  | iscAbsolute w => exact K.rmwClass K.increment K.subtractA h
  | beq d => exact K.branchClass (cond := fun p => p.z) h
  | sbcIndirectIndex b => exact K.readClass K.subtractA h
  | iscIndirectIndex b => exact K.rmwClass K.increment K.subtractA h
  | nopF4 b => exact K.impliedClass K.refl h
  | sbcZeropageX b => exact K.readClass K.subtractA h
  | incZeropageX b => exact K.rmwClass K.increment K.keep h
  | iscZeropageX b => exact K.rmwClass K.increment K.subtractA h
  | sed => exact K.impliedClass (fun s => K.setP s _) h
  | sbcAbsoluteY w => exact K.readClass K.subtractA h
  | nopFA => exact K.impliedClass K.refl h
  | iscAbsoluteY w => exact K.rmwClass K.increment K.subtractA h
  | nopFC w => exact K.nopIndexed h
  | sbcAbsoluteX w => exact K.readClass K.subtractA h
  | incAbsoluteX w => exact K.rmwClass K.increment K.keep h
  | iscAbsoluteX w => exact K.rmwClass K.increment K.subtractA h
  | unmapped op => cases h

/-- The interrupt entries keep `R` once the latch is what it will be. -/
theorem takeIrq (s : State) : R s (takeIrq s) := K.trans (K.enter _ _ s) (K.charge _ _)

end Kept

end Sys2Proof.Machine
end

