-- ==== Sys2Proof/Laws/Step.lean ====
section
/-! SUPPORT. What one step can do, said once: the step taken apart, and `StepKept`, a relation every part of a step
keeps. The canonical form is one such relation. -/

namespace Sys2Proof.Machine

/-- A completed step is a CPU step of a running machine between its two runs of dots. -/
theorem step_eq_next {s t : State} :
    step s = .next t ↔
      s.cpu.halted = none ∧ ∃ c, cpuStep (beginStep s) = .next c ∧ t = endStep c := by
  unfold step
  split
  · next e h => simp [reportHalt, h]
  · next h =>
    rw [Result.andThen_eq_next]
    refine ⟨fun ⟨c, hc, ht⟩ => ⟨h, c, hc, ?_⟩, fun ⟨_, c, hc, ht⟩ => ⟨c, hc, by rw [ht]⟩⟩
    cases ht
    rfl

/-- A step of a halted machine reports the error and changes nothing. -/
theorem step_halted {s : State} {e : DecodeError} (h : s.cpu.halted = some e) :
    step s = .fault (.decodeError e.addr e.opcode s) := by
  unfold step
  rw [h]
  rfl

/-- A completed CPU step is an NMI entry, an IRQ entry or one instruction. -/
theorem cpuStep_next {s t : State} (h : cpuStep s = .next t) :
    s.cpu.halted = none ∧
    ((s.cpu.nmiPending = true ∧ t = takeNmi s) ∨
     (s.cpu.nmiPending = false ∧ s.irqLine = true ∧ s.cpu.p.i = false ∧ t = takeIrq s) ∨
     (s.cpu.nmiPending = false ∧ (s.irqLine = false ∨ s.cpu.p.i = true) ∧
        exec (fetchInstr s).1 (fetchInstr s).2 = .next t)) := by
  unfold cpuStep at h
  split at h
  · cases h
  · next hh =>
    refine ⟨hh, ?_⟩
    unfold poll at h
    cases hn : s.cpu.nmiPending
    · cases hi : s.irqLine
      · simp only [hn, hi] at h
        exact .inr (.inr ⟨rfl, .inl rfl, h⟩)
      · cases hp : s.cpu.p.i
        · simp only [hn, hi, hp] at h
          cases h
          exact .inr (.inl ⟨rfl, rfl, rfl, rfl⟩)
        · simp only [hn, hi, hp] at h
          exact .inr (.inr ⟨rfl, .inr rfl, h⟩)
    · simp only [hn] at h
      cases h
      exact .inl ⟨rfl, rfl⟩

/-- A relation that every part of a step keeps: the basic operations, a dot, the driver's two counters and the taking
of the NMI latch. -/
structure StepKept (R : State → State → Prop) : Prop extends Kept R where
  dot : ∀ s, R s (dotStep s)
  debt : ∀ (s : State) n, R s { s with dotDebt := n }
  dmaCycles : ∀ (s : State) n, R s { s with dmaCycles := n }
  takeLatch : ∀ (s : State), R s { s with cpu := { s.cpu with nmiPending := false } }

namespace StepKept
variable {R : State → State → Prop} (K : StepKept R)
include K

theorem dots (k : Nat) (s : State) : R s (runDots k s) := by
  induction k generalizing s with
  | zero => exact K.refl s
  | succ k ih => exact K.trans (K.dot s) (ih _)

theorem beginStep (s : State) : R s (beginStep s) :=
  K.trans (K.trans (K.dots s.dotDebt s) (K.debt _ 0)) (K.dmaCycles _ 0)

theorem endStep (s : State) : R s (endStep s) := K.trans (K.dmaCycles s 0) (K.dots _ _)

theorem takeNmi (s : State) : R s (takeNmi s) :=
  K.trans (K.trans (K.takeLatch s) (K.enter _ _ _)) (K.charge _ _)

theorem cpuStep {s t : State} (h : cpuStep s = .next t) : R s t := by
  obtain ⟨-, ⟨-, rfl⟩ | ⟨-, -, -, rfl⟩ | ⟨-, -, h⟩⟩ := cpuStep_next h
  · exact K.takeNmi s
  · exact K.takeIrq s
  · exact K.trans (K.fetchInstr s) (K.exec h)

/-- Every step that completes keeps `R`. -/
theorem step {s t : State} (h : step s = .next t) : R s t := by
  obtain ⟨-, c, hc, rfl⟩ := step_eq_next.mp h
  exact K.trans (K.trans (K.beginStep s) (K.cpuStep hc)) (K.endStep c)

end StepKept

/-! ## The canonical form -/

/-- The parts of `State.wf`. -/
theorem State.wf_iff (s : State) : s.wf = true ↔ Memory.wf 2048 s.ram ∧ s.cart.wf ∧ s.ppu.wf := by
  simp only [State.wf, Bool.and_eq_true, and_assoc]

theorem memRead_wf {s : State} (h : s.wf) (a : Addr) : (memRead a s).2.wf := by
  rw [State.wf_iff] at h ⊢
  rcases memRead_state a s with e | ⟨p, e⟩ | e <;> rw [e]
  · exact h
  · exact ⟨h.1, h.2.1, portRead_wf h.2.2 p⟩
  · exact h

theorem busStore_wf {s : State} (h : s.wf) (a : Addr) (v : Byte) : (busStore a v s).wf := by
  rw [State.wf_iff] at h ⊢
  rcases busStore_state a v s with e | ⟨i, hi, -, e⟩ | ⟨p, e⟩ | e <;> rw [e]
  · exact h
  · exact ⟨Memory.wf_set h.1 hi v, h.2⟩
  · exact ⟨h.1, h.2.1, portWrite_wf h.2.2 p v⟩
  · exact h

/-- The copy keeps OAM's canonical form. -/
theorem dmaCopy_wf {s : State} (h : Memory.wf 256 s.ppu.oam) (pg : Byte) : Memory.wf 256 (dmaCopy s pg) := by
  unfold dmaCopy
  generalize List.range 256 = l
  generalize s.ppu.oam = m at h
  induction l generalizing m with
  | nil => exact h
  | cons i l ih => exact ih _ (Memory.wf_set h (Nat.mod_lt _ (by decide)) _)

theorem oamDma_wf {s t : State} {pg : Byte} (h : s.wf) (ht : oamDma pg s = .next t) : t.wf := by
  obtain ⟨-, rfl⟩ := oamDma_next ht
  rw [State.wf_iff, Ppu.wf_iff] at h ⊢
  have hd := dmaCopy_wf h.2.2.1 pg
  dsimp only at hd ⊢
  exact ⟨h.1, h.2.1, hd, h.2.2.2⟩

end Sys2Proof.Machine
end

