-- ==== Sys2Proof/Tests/Slice0.lean ====
section
/-! SUPPORT. The model's own tests: ill-formed terms are refused, the words of the spec's `Encodings` lines decode to
their instructions, single steps give the results of 95_test_vectors.md, and each statement's hypotheses can be met. -/

namespace Sys2Proof.Tests

open Sys2Proof.Machine

/-! ## Well-formedness -/

/-- The one check of `Instr.wellFormed`: an `unmapped` term with a mapped byte is refused. -/
theorem test_wellFormed_refuses_mapped_byte : (Instr.unmapped 0xA9).wellFormed = false := by decide

theorem test_wellFormed_accepts : (Instr.unmapped 0x02).wellFormed = true ∧ (Instr.ldaImmediate 0xFF).wellFormed = true := by
  decide

/-! ## Decoding: the words of the `Encodings` lines of 41_load_store_transfer.md to 45_unofficial.md, with the operand
bytes 0x34 and 0x12; the unmapped bytes of 30_encoding.md R138 -/

theorem test_decode_row_0 :
    decode [0x00] = .ok (.brk, []) ∧
    decode [0x01, 0x34] = .ok (.oraIndexIndirect 0x34, []) ∧
    decode [0x02] = .ok (.unmapped 0x02, []) ∧
    decode [0x03, 0x34] = .ok (.sloIndexIndirect 0x34, []) ∧
    decode [0x04, 0x34] = .ok (.nop04 0x34, []) ∧
    decode [0x05, 0x34] = .ok (.oraZeropage 0x34, []) ∧
    decode [0x06, 0x34] = .ok (.aslZeropage 0x34, []) ∧
    decode [0x07, 0x34] = .ok (.sloZeropage 0x34, []) ∧
    decode [0x08] = .ok (.php, []) ∧
    decode [0x09, 0x34] = .ok (.oraImmediate 0x34, []) ∧
    decode [0x0A] = .ok (.aslAccumulator, []) ∧
    decode [0x0B] = .ok (.unmapped 0x0B, []) ∧
    decode [0x0C, 0x34, 0x12] = .ok (.nop0C 0x1234, []) ∧
    decode [0x0D, 0x34, 0x12] = .ok (.oraAbsolute 0x1234, []) ∧
    decode [0x0E, 0x34, 0x12] = .ok (.aslAbsolute 0x1234, []) ∧
    decode [0x0F, 0x34, 0x12] = .ok (.sloAbsolute 0x1234, []) := by
  exact ⟨rfl, rfl, rfl, rfl, rfl, rfl, rfl, rfl, rfl, rfl, rfl, rfl, rfl, rfl, rfl, rfl⟩

theorem test_decode_row_1 :
    decode [0x10, 0x34] = .ok (.bpl 0x34, []) ∧
    decode [0x11, 0x34] = .ok (.oraIndirectIndex 0x34, []) ∧
    decode [0x12] = .ok (.unmapped 0x12, []) ∧
    decode [0x13, 0x34] = .ok (.sloIndirectIndex 0x34, []) ∧
    decode [0x14, 0x34] = .ok (.nop14 0x34, []) ∧
    decode [0x15, 0x34] = .ok (.oraZeropageX 0x34, []) ∧
    decode [0x16, 0x34] = .ok (.aslZeropageX 0x34, []) ∧
    decode [0x17, 0x34] = .ok (.sloZeropageX 0x34, []) ∧
    decode [0x18] = .ok (.clc, []) ∧
    decode [0x19, 0x34, 0x12] = .ok (.oraAbsoluteY 0x1234, []) ∧
    decode [0x1A] = .ok (.nop1A, []) ∧
    decode [0x1B, 0x34, 0x12] = .ok (.sloAbsoluteY 0x1234, []) ∧
    decode [0x1C, 0x34, 0x12] = .ok (.nop1C 0x1234, []) ∧
    decode [0x1D, 0x34, 0x12] = .ok (.oraAbsoluteX 0x1234, []) ∧
    decode [0x1E, 0x34, 0x12] = .ok (.aslAbsoluteX 0x1234, []) ∧
    decode [0x1F, 0x34, 0x12] = .ok (.sloAbsoluteX 0x1234, []) := by
  exact ⟨rfl, rfl, rfl, rfl, rfl, rfl, rfl, rfl, rfl, rfl, rfl, rfl, rfl, rfl, rfl, rfl⟩

theorem test_decode_row_2 :
    decode [0x20, 0x34, 0x12] = .ok (.jsr 0x1234, []) ∧
    decode [0x21, 0x34] = .ok (.andIndexIndirect 0x34, []) ∧
    decode [0x22] = .ok (.unmapped 0x22, []) ∧
    decode [0x23, 0x34] = .ok (.rlaIndexIndirect 0x34, []) ∧
    decode [0x24, 0x34] = .ok (.bitZeropage 0x34, []) ∧
    decode [0x25, 0x34] = .ok (.andZeropage 0x34, []) ∧
    decode [0x26, 0x34] = .ok (.rolZeropage 0x34, []) ∧
    decode [0x27, 0x34] = .ok (.rlaZeropage 0x34, []) ∧
    decode [0x28] = .ok (.plp, []) ∧
    decode [0x29, 0x34] = .ok (.andImmediate 0x34, []) ∧
    decode [0x2A] = .ok (.rolAccumulator, []) ∧
    decode [0x2B] = .ok (.unmapped 0x2B, []) ∧
    decode [0x2C, 0x34, 0x12] = .ok (.bitAbsolute 0x1234, []) ∧
    decode [0x2D, 0x34, 0x12] = .ok (.andAbsolute 0x1234, []) ∧
    decode [0x2E, 0x34, 0x12] = .ok (.rolAbsolute 0x1234, []) ∧
    decode [0x2F, 0x34, 0x12] = .ok (.rlaAbsolute 0x1234, []) := by
  exact ⟨rfl, rfl, rfl, rfl, rfl, rfl, rfl, rfl, rfl, rfl, rfl, rfl, rfl, rfl, rfl, rfl⟩

theorem test_decode_row_3 :
    decode [0x30, 0x34] = .ok (.bmi 0x34, []) ∧
    decode [0x31, 0x34] = .ok (.andIndirectIndex 0x34, []) ∧
    decode [0x32] = .ok (.unmapped 0x32, []) ∧
    decode [0x33, 0x34] = .ok (.rlaIndirectIndex 0x34, []) ∧
    decode [0x34, 0x34] = .ok (.nop34 0x34, []) ∧
    decode [0x35, 0x34] = .ok (.andZeropageX 0x34, []) ∧
    decode [0x36, 0x34] = .ok (.rolZeropageX 0x34, []) ∧
    decode [0x37, 0x34] = .ok (.rlaZeropageX 0x34, []) ∧
    decode [0x38] = .ok (.sec, []) ∧
    decode [0x39, 0x34, 0x12] = .ok (.andAbsoluteY 0x1234, []) ∧
    decode [0x3A] = .ok (.nop3A, []) ∧
    decode [0x3B, 0x34, 0x12] = .ok (.rlaAbsoluteY 0x1234, []) ∧
    decode [0x3C, 0x34, 0x12] = .ok (.nop3C 0x1234, []) ∧
    decode [0x3D, 0x34, 0x12] = .ok (.andAbsoluteX 0x1234, []) ∧
    decode [0x3E, 0x34, 0x12] = .ok (.rolAbsoluteX 0x1234, []) ∧
    decode [0x3F, 0x34, 0x12] = .ok (.rlaAbsoluteX 0x1234, []) := by
  exact ⟨rfl, rfl, rfl, rfl, rfl, rfl, rfl, rfl, rfl, rfl, rfl, rfl, rfl, rfl, rfl, rfl⟩

theorem test_decode_row_4 :
    decode [0x40] = .ok (.rti, []) ∧
    decode [0x41, 0x34] = .ok (.eorIndexIndirect 0x34, []) ∧
    decode [0x42] = .ok (.unmapped 0x42, []) ∧
    decode [0x43, 0x34] = .ok (.sreIndexIndirect 0x34, []) ∧
    decode [0x44, 0x34] = .ok (.nop44 0x34, []) ∧
    decode [0x45, 0x34] = .ok (.eorZeropage 0x34, []) ∧
    decode [0x46, 0x34] = .ok (.lsrZeropage 0x34, []) ∧
    decode [0x47, 0x34] = .ok (.sreZeropage 0x34, []) ∧
    decode [0x48] = .ok (.pha, []) ∧
    decode [0x49, 0x34] = .ok (.eorImmediate 0x34, []) ∧
    decode [0x4A] = .ok (.lsrAccumulator, []) ∧
    decode [0x4B] = .ok (.unmapped 0x4B, []) ∧
    decode [0x4C, 0x34, 0x12] = .ok (.jmpAbsolute 0x1234, []) ∧
    decode [0x4D, 0x34, 0x12] = .ok (.eorAbsolute 0x1234, []) ∧
    decode [0x4E, 0x34, 0x12] = .ok (.lsrAbsolute 0x1234, []) ∧
    decode [0x4F, 0x34, 0x12] = .ok (.sreAbsolute 0x1234, []) := by
  exact ⟨rfl, rfl, rfl, rfl, rfl, rfl, rfl, rfl, rfl, rfl, rfl, rfl, rfl, rfl, rfl, rfl⟩

theorem test_decode_row_5 :
    decode [0x50, 0x34] = .ok (.bvc 0x34, []) ∧
    decode [0x51, 0x34] = .ok (.eorIndirectIndex 0x34, []) ∧
    decode [0x52] = .ok (.unmapped 0x52, []) ∧
    decode [0x53, 0x34] = .ok (.sreIndirectIndex 0x34, []) ∧
    decode [0x54, 0x34] = .ok (.nop54 0x34, []) ∧
    decode [0x55, 0x34] = .ok (.eorZeropageX 0x34, []) ∧
    decode [0x56, 0x34] = .ok (.lsrZeropageX 0x34, []) ∧
    decode [0x57, 0x34] = .ok (.sreZeropageX 0x34, []) ∧
    decode [0x58] = .ok (.cli, []) ∧
    decode [0x59, 0x34, 0x12] = .ok (.eorAbsoluteY 0x1234, []) ∧
    decode [0x5A] = .ok (.nop5A, []) ∧
    decode [0x5B, 0x34, 0x12] = .ok (.sreAbsoluteY 0x1234, []) ∧
    decode [0x5C, 0x34, 0x12] = .ok (.nop5C 0x1234, []) ∧
    decode [0x5D, 0x34, 0x12] = .ok (.eorAbsoluteX 0x1234, []) ∧
    decode [0x5E, 0x34, 0x12] = .ok (.lsrAbsoluteX 0x1234, []) ∧
    decode [0x5F, 0x34, 0x12] = .ok (.sreAbsoluteX 0x1234, []) := by
  exact ⟨rfl, rfl, rfl, rfl, rfl, rfl, rfl, rfl, rfl, rfl, rfl, rfl, rfl, rfl, rfl, rfl⟩

theorem test_decode_row_6 :
    decode [0x60] = .ok (.rts, []) ∧
    decode [0x61, 0x34] = .ok (.adcIndexIndirect 0x34, []) ∧
    decode [0x62] = .ok (.unmapped 0x62, []) ∧
    decode [0x63, 0x34] = .ok (.rraIndexIndirect 0x34, []) ∧
    decode [0x64, 0x34] = .ok (.nop64 0x34, []) ∧
    decode [0x65, 0x34] = .ok (.adcZeropage 0x34, []) ∧
    decode [0x66, 0x34] = .ok (.rorZeropage 0x34, []) ∧
    decode [0x67, 0x34] = .ok (.rraZeropage 0x34, []) ∧
    decode [0x68] = .ok (.pla, []) ∧
    decode [0x69, 0x34] = .ok (.adcImmediate 0x34, []) ∧
    decode [0x6A] = .ok (.rorAccumulator, []) ∧
    decode [0x6B] = .ok (.unmapped 0x6B, []) ∧
    decode [0x6C, 0x34, 0x12] = .ok (.jmpIndirect 0x1234, []) ∧
    decode [0x6D, 0x34, 0x12] = .ok (.adcAbsolute 0x1234, []) ∧
    decode [0x6E, 0x34, 0x12] = .ok (.rorAbsolute 0x1234, []) ∧
    decode [0x6F, 0x34, 0x12] = .ok (.rraAbsolute 0x1234, []) := by
  exact ⟨rfl, rfl, rfl, rfl, rfl, rfl, rfl, rfl, rfl, rfl, rfl, rfl, rfl, rfl, rfl, rfl⟩

theorem test_decode_row_7 :
    decode [0x70, 0x34] = .ok (.bvs 0x34, []) ∧
    decode [0x71, 0x34] = .ok (.adcIndirectIndex 0x34, []) ∧
    decode [0x72] = .ok (.unmapped 0x72, []) ∧
    decode [0x73, 0x34] = .ok (.rraIndirectIndex 0x34, []) ∧
    decode [0x74, 0x34] = .ok (.nop74 0x34, []) ∧
    decode [0x75, 0x34] = .ok (.adcZeropageX 0x34, []) ∧
    decode [0x76, 0x34] = .ok (.rorZeropageX 0x34, []) ∧
    decode [0x77, 0x34] = .ok (.rraZeropageX 0x34, []) ∧
    decode [0x78] = .ok (.sei, []) ∧
    decode [0x79, 0x34, 0x12] = .ok (.adcAbsoluteY 0x1234, []) ∧
    decode [0x7A] = .ok (.nop7A, []) ∧
    decode [0x7B, 0x34, 0x12] = .ok (.rraAbsoluteY 0x1234, []) ∧
    decode [0x7C, 0x34, 0x12] = .ok (.nop7C 0x1234, []) ∧
    decode [0x7D, 0x34, 0x12] = .ok (.adcAbsoluteX 0x1234, []) ∧
    decode [0x7E, 0x34, 0x12] = .ok (.rorAbsoluteX 0x1234, []) ∧
    decode [0x7F, 0x34, 0x12] = .ok (.rraAbsoluteX 0x1234, []) := by
  exact ⟨rfl, rfl, rfl, rfl, rfl, rfl, rfl, rfl, rfl, rfl, rfl, rfl, rfl, rfl, rfl, rfl⟩

theorem test_decode_row_8 :
    decode [0x80, 0x34] = .ok (.nop80 0x34, []) ∧
    decode [0x81, 0x34] = .ok (.staIndexIndirect 0x34, []) ∧
    decode [0x82, 0x34] = .ok (.nop82 0x34, []) ∧
    decode [0x83, 0x34] = .ok (.saxIndexIndirect 0x34, []) ∧
    decode [0x84, 0x34] = .ok (.styZeropage 0x34, []) ∧
    decode [0x85, 0x34] = .ok (.staZeropage 0x34, []) ∧
    decode [0x86, 0x34] = .ok (.stxZeropage 0x34, []) ∧
    decode [0x87, 0x34] = .ok (.saxZeropage 0x34, []) ∧
    decode [0x88] = .ok (.dey, []) ∧
    decode [0x89, 0x34] = .ok (.nop89 0x34, []) ∧
    decode [0x8A] = .ok (.txa, []) ∧
    decode [0x8B] = .ok (.unmapped 0x8B, []) ∧
    decode [0x8C, 0x34, 0x12] = .ok (.styAbsolute 0x1234, []) ∧
    decode [0x8D, 0x34, 0x12] = .ok (.staAbsolute 0x1234, []) ∧
    decode [0x8E, 0x34, 0x12] = .ok (.stxAbsolute 0x1234, []) ∧
    decode [0x8F, 0x34, 0x12] = .ok (.saxAbsolute 0x1234, []) := by
  exact ⟨rfl, rfl, rfl, rfl, rfl, rfl, rfl, rfl, rfl, rfl, rfl, rfl, rfl, rfl, rfl, rfl⟩

theorem test_decode_row_9 :
    decode [0x90, 0x34] = .ok (.bcc 0x34, []) ∧
    decode [0x91, 0x34] = .ok (.staIndirectIndex 0x34, []) ∧
    decode [0x92] = .ok (.unmapped 0x92, []) ∧
    decode [0x93] = .ok (.unmapped 0x93, []) ∧
    decode [0x94, 0x34] = .ok (.styZeropageX 0x34, []) ∧
    decode [0x95, 0x34] = .ok (.staZeropageX 0x34, []) ∧
    decode [0x96, 0x34] = .ok (.stxZeropageY 0x34, []) ∧
    decode [0x97, 0x34] = .ok (.saxZeropageY 0x34, []) ∧
    decode [0x98] = .ok (.tya, []) ∧
    decode [0x99, 0x34, 0x12] = .ok (.staAbsoluteY 0x1234, []) ∧
    decode [0x9A] = .ok (.txs, []) ∧
    decode [0x9B] = .ok (.unmapped 0x9B, []) ∧
    decode [0x9C] = .ok (.unmapped 0x9C, []) ∧
    decode [0x9D, 0x34, 0x12] = .ok (.staAbsoluteX 0x1234, []) ∧
    decode [0x9E] = .ok (.unmapped 0x9E, []) ∧
    decode [0x9F] = .ok (.unmapped 0x9F, []) := by
  exact ⟨rfl, rfl, rfl, rfl, rfl, rfl, rfl, rfl, rfl, rfl, rfl, rfl, rfl, rfl, rfl, rfl⟩

theorem test_decode_row_A :
    decode [0xA0, 0x34] = .ok (.ldyImmediate 0x34, []) ∧
    decode [0xA1, 0x34] = .ok (.ldaIndexIndirect 0x34, []) ∧
    decode [0xA2, 0x34] = .ok (.ldxImmediate 0x34, []) ∧
    decode [0xA3, 0x34] = .ok (.laxIndexIndirect 0x34, []) ∧
    decode [0xA4, 0x34] = .ok (.ldyZeropage 0x34, []) ∧
    decode [0xA5, 0x34] = .ok (.ldaZeropage 0x34, []) ∧
    decode [0xA6, 0x34] = .ok (.ldxZeropage 0x34, []) ∧
    decode [0xA7, 0x34] = .ok (.laxZeropage 0x34, []) ∧
    decode [0xA8] = .ok (.tay, []) ∧
    decode [0xA9, 0x34] = .ok (.ldaImmediate 0x34, []) ∧
    decode [0xAA] = .ok (.tax, []) ∧
    decode [0xAB] = .ok (.unmapped 0xAB, []) ∧
    decode [0xAC, 0x34, 0x12] = .ok (.ldyAbsolute 0x1234, []) ∧
    decode [0xAD, 0x34, 0x12] = .ok (.ldaAbsolute 0x1234, []) ∧
    decode [0xAE, 0x34, 0x12] = .ok (.ldxAbsolute 0x1234, []) ∧
    decode [0xAF, 0x34, 0x12] = .ok (.laxAbsolute 0x1234, []) := by
  exact ⟨rfl, rfl, rfl, rfl, rfl, rfl, rfl, rfl, rfl, rfl, rfl, rfl, rfl, rfl, rfl, rfl⟩

theorem test_decode_row_B :
    decode [0xB0, 0x34] = .ok (.bcs 0x34, []) ∧
    decode [0xB1, 0x34] = .ok (.ldaIndirectIndex 0x34, []) ∧
    decode [0xB2] = .ok (.unmapped 0xB2, []) ∧
    decode [0xB3, 0x34] = .ok (.laxIndirectIndex 0x34, []) ∧
    decode [0xB4, 0x34] = .ok (.ldyZeropageX 0x34, []) ∧
    decode [0xB5, 0x34] = .ok (.ldaZeropageX 0x34, []) ∧
    decode [0xB6, 0x34] = .ok (.ldxZeropageY 0x34, []) ∧
    decode [0xB7, 0x34] = .ok (.laxZeropageY 0x34, []) ∧
    decode [0xB8] = .ok (.clv, []) ∧
    decode [0xB9, 0x34, 0x12] = .ok (.ldaAbsoluteY 0x1234, []) ∧
    decode [0xBA] = .ok (.tsx, []) ∧
    decode [0xBB] = .ok (.unmapped 0xBB, []) ∧
    decode [0xBC, 0x34, 0x12] = .ok (.ldyAbsoluteX 0x1234, []) ∧
    decode [0xBD, 0x34, 0x12] = .ok (.ldaAbsoluteX 0x1234, []) ∧
    decode [0xBE, 0x34, 0x12] = .ok (.ldxAbsoluteY 0x1234, []) ∧
    decode [0xBF, 0x34, 0x12] = .ok (.laxAbsoluteY 0x1234, []) := by
  exact ⟨rfl, rfl, rfl, rfl, rfl, rfl, rfl, rfl, rfl, rfl, rfl, rfl, rfl, rfl, rfl, rfl⟩

theorem test_decode_row_C :
    decode [0xC0, 0x34] = .ok (.cpyImmediate 0x34, []) ∧
    decode [0xC1, 0x34] = .ok (.cmpIndexIndirect 0x34, []) ∧
    decode [0xC2, 0x34] = .ok (.nopC2 0x34, []) ∧
    decode [0xC3, 0x34] = .ok (.dcpIndexIndirect 0x34, []) ∧
    decode [0xC4, 0x34] = .ok (.cpyZeropage 0x34, []) ∧
    decode [0xC5, 0x34] = .ok (.cmpZeropage 0x34, []) ∧
    decode [0xC6, 0x34] = .ok (.decZeropage 0x34, []) ∧
    decode [0xC7, 0x34] = .ok (.dcpZeropage 0x34, []) ∧
    decode [0xC8] = .ok (.iny, []) ∧
    decode [0xC9, 0x34] = .ok (.cmpImmediate 0x34, []) ∧
    decode [0xCA] = .ok (.dex, []) ∧
    decode [0xCB] = .ok (.unmapped 0xCB, []) ∧
    decode [0xCC, 0x34, 0x12] = .ok (.cpyAbsolute 0x1234, []) ∧
    decode [0xCD, 0x34, 0x12] = .ok (.cmpAbsolute 0x1234, []) ∧
    decode [0xCE, 0x34, 0x12] = .ok (.decAbsolute 0x1234, []) ∧
    decode [0xCF, 0x34, 0x12] = .ok (.dcpAbsolute 0x1234, []) := by
  exact ⟨rfl, rfl, rfl, rfl, rfl, rfl, rfl, rfl, rfl, rfl, rfl, rfl, rfl, rfl, rfl, rfl⟩

theorem test_decode_row_D :
    decode [0xD0, 0x34] = .ok (.bne 0x34, []) ∧
    decode [0xD1, 0x34] = .ok (.cmpIndirectIndex 0x34, []) ∧
    decode [0xD2] = .ok (.unmapped 0xD2, []) ∧
    decode [0xD3, 0x34] = .ok (.dcpIndirectIndex 0x34, []) ∧
    decode [0xD4, 0x34] = .ok (.nopD4 0x34, []) ∧
    decode [0xD5, 0x34] = .ok (.cmpZeropageX 0x34, []) ∧
    decode [0xD6, 0x34] = .ok (.decZeropageX 0x34, []) ∧
    decode [0xD7, 0x34] = .ok (.dcpZeropageX 0x34, []) ∧
    decode [0xD8] = .ok (.cld, []) ∧
    decode [0xD9, 0x34, 0x12] = .ok (.cmpAbsoluteY 0x1234, []) ∧
    decode [0xDA] = .ok (.nopDA, []) ∧
    decode [0xDB, 0x34, 0x12] = .ok (.dcpAbsoluteY 0x1234, []) ∧
    decode [0xDC, 0x34, 0x12] = .ok (.nopDC 0x1234, []) ∧
    decode [0xDD, 0x34, 0x12] = .ok (.cmpAbsoluteX 0x1234, []) ∧
    decode [0xDE, 0x34, 0x12] = .ok (.decAbsoluteX 0x1234, []) ∧
    decode [0xDF, 0x34, 0x12] = .ok (.dcpAbsoluteX 0x1234, []) := by
  exact ⟨rfl, rfl, rfl, rfl, rfl, rfl, rfl, rfl, rfl, rfl, rfl, rfl, rfl, rfl, rfl, rfl⟩

theorem test_decode_row_E :
    decode [0xE0, 0x34] = .ok (.cpxImmediate 0x34, []) ∧
    decode [0xE1, 0x34] = .ok (.sbcIndexIndirect 0x34, []) ∧
    decode [0xE2, 0x34] = .ok (.nopE2 0x34, []) ∧
    decode [0xE3, 0x34] = .ok (.iscIndexIndirect 0x34, []) ∧
    decode [0xE4, 0x34] = .ok (.cpxZeropage 0x34, []) ∧
    decode [0xE5, 0x34] = .ok (.sbcZeropage 0x34, []) ∧
    decode [0xE6, 0x34] = .ok (.incZeropage 0x34, []) ∧
    decode [0xE7, 0x34] = .ok (.iscZeropage 0x34, []) ∧
    decode [0xE8] = .ok (.inx, []) ∧
    decode [0xE9, 0x34] = .ok (.sbcImmediate 0x34, []) ∧
    decode [0xEA] = .ok (.nop, []) ∧
    decode [0xEB, 0x34] = .ok (.sbcImmediateEB 0x34, []) ∧
    decode [0xEC, 0x34, 0x12] = .ok (.cpxAbsolute 0x1234, []) ∧
    decode [0xED, 0x34, 0x12] = .ok (.sbcAbsolute 0x1234, []) ∧
    decode [0xEE, 0x34, 0x12] = .ok (.incAbsolute 0x1234, []) ∧
    decode [0xEF, 0x34, 0x12] = .ok (.iscAbsolute 0x1234, []) := by
  exact ⟨rfl, rfl, rfl, rfl, rfl, rfl, rfl, rfl, rfl, rfl, rfl, rfl, rfl, rfl, rfl, rfl⟩

theorem test_decode_row_F :
    decode [0xF0, 0x34] = .ok (.beq 0x34, []) ∧
    decode [0xF1, 0x34] = .ok (.sbcIndirectIndex 0x34, []) ∧
    decode [0xF2] = .ok (.unmapped 0xF2, []) ∧
    decode [0xF3, 0x34] = .ok (.iscIndirectIndex 0x34, []) ∧
    decode [0xF4, 0x34] = .ok (.nopF4 0x34, []) ∧
    decode [0xF5, 0x34] = .ok (.sbcZeropageX 0x34, []) ∧
    decode [0xF6, 0x34] = .ok (.incZeropageX 0x34, []) ∧
    decode [0xF7, 0x34] = .ok (.iscZeropageX 0x34, []) ∧
    decode [0xF8] = .ok (.sed, []) ∧
    decode [0xF9, 0x34, 0x12] = .ok (.sbcAbsoluteY 0x1234, []) ∧
    decode [0xFA] = .ok (.nopFA, []) ∧
    decode [0xFB, 0x34, 0x12] = .ok (.iscAbsoluteY 0x1234, []) ∧
    decode [0xFC, 0x34, 0x12] = .ok (.nopFC 0x1234, []) ∧
    decode [0xFD, 0x34, 0x12] = .ok (.sbcAbsoluteX 0x1234, []) ∧
    decode [0xFE, 0x34, 0x12] = .ok (.incAbsoluteX 0x1234, []) ∧
    decode [0xFF, 0x34, 0x12] = .ok (.iscAbsoluteX 0x1234, []) := by
  exact ⟨rfl, rfl, rfl, rfl, rfl, rfl, rfl, rfl, rfl, rfl, rfl, rfl, rfl, rfl, rfl, rfl⟩

/-- BNE with displacement -5 written out bit by bit: 11010000 11111011 (30_encoding.md R136, section 5). -/
theorem test_decode_bits : decode [0b11010000, 0b11111011] = .ok (.bne 0xFB, []) := rfl

theorem test_decode_truncated : decode [0xAD, 0x34] = .error (.truncated 0xAD) ∧ decode [] = .error .noBytes := ⟨rfl, rfl⟩

/-- The table's numbering: the first byte is the least significant one. -/
theorem test_decodeTableWord : decodeTableWord 24 0x1234AD = some (.ldaAbsolute 0x1234) := rfl

/-! ## Single steps (95_test_vectors.md part 2) -/

/-- A machine with the code at 0x8000, registers and flags changed by `f`, and the listed bytes of RAM. -/
def start (code : List Byte) (ram : List Host.Cell) (f : Cpu → Cpu) : State :=
  { State.reset with
    cpu := f { State.reset.cpu with pc := 0x8000 },
    ram := ram,
    cart := { Cartridge.blank with prg := Memory.ofBytes 0 code, mirroring := .vertical } }

/-- The reset flags with six of them given, in the order of the vectors: `N V D I Z C`. -/
def flags (n v d i z c : Bool) : Flags := { n := n, v := v, b := false, d := d, i := i, z := z, c := c }

/-- Registers, flags, cycle count and all of RAM after one step. -/
structure After where
  a      : Byte
  x      : Byte
  y      : Byte
  s      : Byte
  pc     : Addr
  p      : Flags
  cycles : Nat
  ram    : List Host.Cell
  deriving DecidableEq, Repr

/-- What one CPU step leaves. -/
def after (s : State) : Option After :=
  match cpuStep s with
  | .next t => some ⟨t.cpu.a, t.cpu.x, t.cpu.y, t.cpu.s, t.cpu.pc, t.cpu.p, t.cycles, t.ram⟩
  | _ => none

/-- T1 (R180): LDA immediate zero sets Z. -/
theorem test_T1 :
    after (start [0xA9, 0x00] [] (id)) =
      some ⟨0x00, 0x00, 0x00, 0xFD, 0x8002, flags false false false true true false, 2, []⟩ := by
  decide +kernel

/-- T4 (R180): zero page,X wraps inside page 0: 0x80 + 0xFF = 0x7F, not 0x017F. -/
theorem test_T4 :
    after (start [0xB5, 0x80] [(0x7F, 0x33), (0x17F, 0x44)] (fun c => { c with x := 0xFF })) =
      some ⟨0x33, 0xFF, 0x00, 0xFD, 0x8002, flags false false false true false false, 4, [(0x7F, 0x33), (0x17F, 0x44)]⟩ := by
  decide +kernel

/-- T5 (R181): LDX zero page,Y wraps to 0x01. -/
theorem test_T5 :
    after (start [0xB6, 0xFF] [(0x01, 0x99), (0x101, 0x11)] (fun c => { c with y := 0x02 })) =
      some ⟨0x00, 0x99, 0x02, 0xFD, 0x8002, flags true false false true false false, 4, [(0x01, 0x99), (0x101, 0x11)]⟩ := by
  decide +kernel

/-- T11 (R181): LDX absolute,Y, zero result. -/
theorem test_T11 :
    after (start [0xBE, 0x10, 0x02] [] (fun c => { c with y := 0x05 })) =
      some ⟨0x00, 0x00, 0x05, 0xFD, 0x8003, flags false false false true true false, 4, []⟩ := by
  decide +kernel

/-- T12 (R180): (zp,X): pointer at 0xFF, high byte from 0x00 not 0x0100. -/
theorem test_T12 :
    after (start [0xA1, 0xFE] [(0x00, 0x02), (0xFF, 0x34), (0x100, 0x07), (0x234, 0xAB)] (fun c => { c with x := 0x01 })) =
      some ⟨0xAB, 0x01, 0x00, 0xFD, 0x8002, flags true false false true false false, 6, [(0x00, 0x02), (0xFF, 0x34), (0x100, 0x07), (0x234, 0xAB)]⟩ := by
  decide +kernel

/-- T13 (R180): (zp),Y crossing: 0x02F8 + 0x10 = 0x0308, 5 + 1 cycles. -/
theorem test_T13 :
    after (start [0xB1, 0x20] [(0x20, 0xF8), (0x21, 0x02), (0x308, 0x66)] (fun c => { c with y := 0x10 })) =
      some ⟨0x66, 0x00, 0x10, 0xFD, 0x8002, flags false false false true false false, 6, [(0x20, 0xF8), (0x21, 0x02), (0x308, 0x66)]⟩ := by
  decide +kernel

/-- T10 (R182): LDY absolute,X crossing. -/
theorem test_T10 :
    after (start [0xBC, 0x80, 0x02] [(0x300, 0xFE)] (fun c => { c with x := 0x80 })) =
      some ⟨0x00, 0x80, 0xFE, 0xFD, 0x8003, flags true false false true false false, 5, [(0x300, 0xFE)]⟩ := by
  decide +kernel

/-- T18 (R183): STA (zp),Y: always 6 cycles. -/
theorem test_T18 :
    after (start [0x91, 0x20] [(0x20, 0x01), (0x21, 0x02)] (fun c => { c with a := 0x13, y := 0xFF })) =
      some ⟨0x13, 0x00, 0xFF, 0xFD, 0x8002, flags false false false true false false, 6, [(0x20, 0x01), (0x21, 0x02), (0x300, 0x13)]⟩ := by
  decide +kernel

/-- T22 (R183): store to a RAM mirror. -/
theorem test_T22 :
    after (start [0x8D, 0x00, 0x08] [] (fun c => { c with a := 0x17 })) =
      some ⟨0x17, 0x00, 0x00, 0xFD, 0x8003, flags false false false true false false, 4, [(0x00, 0x17)]⟩ := by
  decide +kernel

/-- T20 (R184): STX zero page,Y wraps to 0x10. -/
theorem test_T20 :
    after (start [0x96, 0xF0] [] (fun c => { c with x := 0x15, y := 0x20 })) =
      some ⟨0x00, 0x15, 0x20, 0xFD, 0x8002, flags false false false true false false, 4, [(0x10, 0x15)]⟩ := by
  decide +kernel

/-- T21 (R185): STY zero page,X. -/
theorem test_T21 :
    after (start [0x94, 0x10] [] (fun c => { c with x := 0x01, y := 0x16 })) =
      some ⟨0x00, 0x01, 0x16, 0xFD, 0x8002, flags false false false true false false, 4, [(0x11, 0x16)]⟩ := by
  decide +kernel

/-- T24 (R186): TAX sets N. -/
theorem test_T24 :
    after (start [0xAA] [] (fun c => { c with a := 0x80 })) =
      some ⟨0x80, 0x80, 0x00, 0xFD, 0x8001, flags true false false true false false, 2, []⟩ := by
  decide +kernel

/-- T25 (R187): TAY zero sets Z. -/
theorem test_T25 :
    after (start [0xA8] [] (fun c => { c with a := 0x00, y := 0x55, p := flags false false false true false false })) =
      some ⟨0x00, 0x00, 0x00, 0xFD, 0x8001, flags false false false true true false, 2, []⟩ := by
  decide +kernel

/-- T26 (R188): TXA. -/
theorem test_T26 :
    after (start [0x8A] [] (fun c => { c with a := 0xFF, x := 0x7F })) =
      some ⟨0x7F, 0x7F, 0x00, 0xFD, 0x8001, flags false false false true false false, 2, []⟩ := by
  decide +kernel

/-- T27 (R189): TYA. -/
theorem test_T27 :
    after (start [0x98] [] (fun c => { c with y := 0x01 })) =
      some ⟨0x01, 0x00, 0x01, 0xFD, 0x8001, flags false false false true false false, 2, []⟩ := by
  decide +kernel

/-- T28 (R190): TSX copies S = 0xFD and sets N. -/
theorem test_T28 :
    after (start [0xBA] [] (id)) =
      some ⟨0x00, 0xFD, 0x00, 0xFD, 0x8001, flags true false false true false false, 2, []⟩ := by
  decide +kernel

/-- T29 (R191): TXS sets no flag (Z stays 0). -/
theorem test_T29 :
    after (start [0x9A] [] (fun c => { c with x := 0x00 })) =
      some ⟨0x00, 0x00, 0x00, 0x00, 0x8001, flags false false false true false false, 2, []⟩ := by
  decide +kernel

/-- T30 (R210): AND to zero. -/
theorem test_T30 :
    after (start [0x29, 0x0F] [] (fun c => { c with a := 0xF0 })) =
      some ⟨0x00, 0x00, 0x00, 0xFD, 0x8002, flags false false false true true false, 2, []⟩ := by
  decide +kernel

/-- T33 (R210): AND zero page,X. -/
theorem test_T33 :
    after (start [0x35, 0x10] [(0x11, 0x81)] (fun c => { c with a := 0xFF, x := 0x01 })) =
      some ⟨0x81, 0x01, 0x00, 0xFD, 0x8002, flags true false false true false false, 4, [(0x11, 0x81)]⟩ := by
  decide +kernel

/-- T31 (R211): ORA. -/
theorem test_T31 :
    after (start [0x09, 0x80] [] (fun c => { c with a := 0x01 })) =
      some ⟨0x81, 0x00, 0x00, 0xFD, 0x8002, flags true false false true false false, 2, []⟩ := by
  decide +kernel

/-- T32 (R212): EOR to zero. -/
theorem test_T32 :
    after (start [0x49, 0xFF] [] (fun c => { c with a := 0xFF })) =
      some ⟨0x00, 0x00, 0x00, 0xFD, 0x8002, flags false false false true true false, 2, []⟩ := by
  decide +kernel

/-- T34 (R213): ASL A: bit 7 to carry, result zero. -/
theorem test_T34 :
    after (start [0x0A] [] (fun c => { c with a := 0x80 })) =
      some ⟨0x00, 0x00, 0x00, 0xFD, 0x8001, flags false false false true true true, 2, []⟩ := by
  decide +kernel

/-- T40 (R213): ASL memory: A untouched, 5 cycles. -/
theorem test_T40 :
    after (start [0x06, 0x10] [(0x10, 0x55)] (id)) =
      some ⟨0x00, 0x00, 0x00, 0xFD, 0x8002, flags true false false true false false, 5, [(0x10, 0xAA)]⟩ := by
  decide +kernel

/-- T36 (R214): LSR A: bit 0 to carry; N always 0. -/
theorem test_T36 :
    after (start [0x4A] [] (fun c => { c with a := 0x01 })) =
      some ⟨0x00, 0x00, 0x00, 0xFD, 0x8001, flags false false false true true true, 2, []⟩ := by
  decide +kernel

/-- T41 (R214): LSR absolute,X: 7 cycles, no penalty. -/
theorem test_T41 :
    after (start [0x5E, 0x00, 0x02] [(0x2FF, 0x02)] (fun c => { c with x := 0xFF })) =
      some ⟨0x00, 0xFF, 0x00, 0xFD, 0x8003, flags false false false true false false, 7, [(0x2FF, 0x01)]⟩ := by
  decide +kernel

/-- T37 (R215): ROL A: old carry into bit 0. -/
theorem test_T37 :
    after (start [0x2A] [] (fun c => { c with a := 0x80, p := flags false false false true false true })) =
      some ⟨0x01, 0x00, 0x00, 0xFD, 0x8001, flags false false false true false true, 2, []⟩ := by
  decide +kernel

/-- T42 (R215): ROL absolute,X crossing: still 7. -/
theorem test_T42 :
    after (start [0x3E, 0xFF, 0x01] [(0x200, 0x7F)] (fun c => { c with x := 0x01, p := flags false false false true false true })) =
      some ⟨0x00, 0x01, 0x00, 0xFD, 0x8003, flags true false false true false false, 7, [(0x200, 0xFF)]⟩ := by
  decide +kernel

/-- T38 (R216): ROR A: old carry into bit 7. -/
theorem test_T38 :
    after (start [0x6A] [] (fun c => { c with a := 0x01, p := flags false false false true false true })) =
      some ⟨0x80, 0x00, 0x00, 0xFD, 0x8001, flags true false false true false true, 2, []⟩ := by
  decide +kernel

/-- T43 (R216): ROR zero page,X wraps to 0x00. -/
theorem test_T43 :
    after (start [0x76, 0xFF] [(0x00, 0xFE)] (fun c => { c with x := 0x01, p := flags false false false true false true })) =
      some ⟨0x00, 0x01, 0x00, 0xFD, 0x8002, flags true false false true false false, 6, [(0x00, 0xFF)]⟩ := by
  decide +kernel

/-- T44 (R217): BIT: Z from A and M, N and V from M; A unchanged. -/
theorem test_T44 :
    after (start [0x24, 0x10] [(0x10, 0xC0)] (fun c => { c with a := 0x0F })) =
      some ⟨0x0F, 0x00, 0x00, 0xFD, 0x8002, flags true true false true true false, 3, [(0x10, 0xC0)]⟩ := by
  decide +kernel

/-- T45 (R217): BIT clears N and V from M = 0x01. -/
theorem test_T45 :
    after (start [0x2C, 0x00, 0x02] [(0x200, 0x01)] (fun c => { c with a := 0xFF, p := flags true true false true false false })) =
      some ⟨0xFF, 0x00, 0x00, 0xFD, 0x8003, flags false false false true false false, 4, [(0x200, 0x01)]⟩ := by
  decide +kernel

/-- T47 (R230): CMP less: C clear, N from difference 0xFF. -/
theorem test_T47 :
    after (start [0xC9, 0x41] [] (fun c => { c with a := 0x40 })) =
      some ⟨0x40, 0x00, 0x00, 0xFD, 0x8002, flags true false false true false false, 2, []⟩ := by
  decide +kernel

/-- T48 (R230): CMP greater, unsigned: C set, N set. -/
theorem test_T48 :
    after (start [0xC9, 0x00] [] (fun c => { c with a := 0x80 })) =
      some ⟨0x80, 0x00, 0x00, 0xFD, 0x8002, flags true false false true false true, 2, []⟩ := by
  decide +kernel

/-- T50 (R231): CPX. -/
theorem test_T50 :
    after (start [0xE0, 0x10] [] (fun c => { c with x := 0x20 })) =
      some ⟨0x00, 0x20, 0x00, 0xFD, 0x8002, flags false false false true false true, 2, []⟩ := by
  decide +kernel

/-- T51 (R232): CPY zero page. -/
theorem test_T51 :
    after (start [0xC4, 0x10] [(0x10, 0x02)] (fun c => { c with y := 0x01 })) =
      some ⟨0x00, 0x00, 0x01, 0xFD, 0x8002, flags true false false true false false, 3, [(0x10, 0x02)]⟩ := by
  decide +kernel

/-- T52 (R233): INC wraps to zero; C untouched. -/
theorem test_T52 :
    after (start [0xE6, 0x10] [(0x10, 0xFF)] (id)) =
      some ⟨0x00, 0x00, 0x00, 0xFD, 0x8002, flags false false false true true false, 5, []⟩ := by
  decide +kernel

/-- T54 (R233): INC absolute,X 7 cycles. -/
theorem test_T54 :
    after (start [0xFE, 0x00, 0x02] [(0x201, 0x7F)] (fun c => { c with x := 0x01 })) =
      some ⟨0x00, 0x01, 0x00, 0xFD, 0x8003, flags true false false true false false, 7, [(0x201, 0x80)]⟩ := by
  decide +kernel

/-- T53 (R234): DEC wraps to 0xFF; C untouched. -/
theorem test_T53 :
    after (start [0xC6, 0x10] [] (fun c => { c with p := flags false false false true false true })) =
      some ⟨0x00, 0x00, 0x00, 0xFD, 0x8002, flags true false false true false true, 5, [(0x10, 0xFF)]⟩ := by
  decide +kernel

/-- T55 (R235): INX wrap. -/
theorem test_T55 :
    after (start [0xE8] [] (fun c => { c with x := 0xFF })) =
      some ⟨0x00, 0x00, 0x00, 0xFD, 0x8001, flags false false false true true false, 2, []⟩ := by
  decide +kernel

/-- T56 (R236): INY into bit 7. -/
theorem test_T56 :
    after (start [0xC8] [] (fun c => { c with y := 0x7F })) =
      some ⟨0x00, 0x00, 0x80, 0xFD, 0x8001, flags true false false true false false, 2, []⟩ := by
  decide +kernel

/-- T57 (R237): DEX wrap. -/
theorem test_T57 :
    after (start [0xCA] [] (fun c => { c with x := 0x00 })) =
      some ⟨0x00, 0xFF, 0x00, 0xFD, 0x8001, flags true false false true false false, 2, []⟩ := by
  decide +kernel

/-- T58 (R238): DEY to zero. -/
theorem test_T58 :
    after (start [0x88] [] (fun c => { c with y := 0x01 })) =
      some ⟨0x00, 0x00, 0x00, 0xFD, 0x8001, flags false false false true true false, 2, []⟩ := by
  decide +kernel

/-- T60 (R239): 0xD0 + 0x90: carry and overflow. -/
theorem test_T60 :
    after (start [0x69, 0x90] [] (fun c => { c with a := 0xD0 })) =
      some ⟨0x60, 0x00, 0x00, 0xFD, 0x8002, flags false true false true false true, 2, []⟩ := by
  decide +kernel

/-- T64 (R239): decimal flag set: still binary, 0x0A (92_eei_decisions.md D10). -/
theorem test_T64 :
    after (start [0x69, 0x01] [] (fun c => { c with a := 0x09, p := flags false false true true false false })) =
      some ⟨0x0A, 0x00, 0x00, 0xFD, 0x8002, flags false false true true false false, 2, []⟩ := by
  decide +kernel

/-- T67 (R240): 0x50 - 0xB0 (80 - -80): overflow. -/
theorem test_T67 :
    after (start [0xE9, 0xB0] [] (fun c => { c with a := 0x50, p := flags false false false true false true })) =
      some ⟨0xA0, 0x00, 0x00, 0xFD, 0x8002, flags true true false true false false, 2, []⟩ := by
  decide +kernel

/-- T70 (R240): SBC (zp),Y crossing: 6 cycles. -/
theorem test_T70 :
    after (start [0xF1, 0x20] [(0x20, 0x01), (0x21, 0x02), (0x300, 0x01)] (fun c => { c with a := 0x10, y := 0xFF, p := flags false false false true false true })) =
      some ⟨0x0F, 0x00, 0xFF, 0xFD, 0x8002, flags false false false true false true, 6, [(0x20, 0x01), (0x21, 0x02), (0x300, 0x01)]⟩ := by
  decide +kernel

/-- T72 (R260): push at S = 0 wraps S to 0xFF. -/
theorem test_T72 :
    after (start [0x48] [] (fun c => { c with a := 0x3D, s := 0x00 })) =
      some ⟨0x3D, 0x00, 0x00, 0xFF, 0x8001, flags false false false true false false, 3, [(0x100, 0x3D)]⟩ := by
  decide +kernel

/-- T73 (R261): pull at S = 0xFF reads 0x0100. -/
theorem test_T73 :
    after (start [0x68] [(0x100, 0x80)] (fun c => { c with s := 0xFF })) =
      some ⟨0x80, 0x00, 0x00, 0x00, 0x8001, flags true false false true false false, 4, [(0x100, 0x80)]⟩ := by
  decide +kernel

/-- T75 (R262): PHP pushes 0xB1. -/
theorem test_T75 :
    after (start [0x08] [] (fun c => { c with p := flags true false false false false true })) =
      some ⟨0x00, 0x00, 0x00, 0xFC, 0x8001, flags true false false false false true, 3, [(0x1FD, 0xB1)]⟩ := by
  decide +kernel

/-- T76 (R263): PLP of 0xFF sets all six flags. -/
theorem test_T76 :
    after (start [0x28] [(0x1FD, 0xFF)] (fun c => { c with s := 0xFC })) =
      some ⟨0x00, 0x00, 0x00, 0xFD, 0x8001, { flags true true true true true true with b := true }, 4, [(0x1FD, 0xFF)]⟩ := by
  decide +kernel

/-- T78 (R264): JMP absolute. -/
theorem test_T78 :
    after (start [0x4C, 0x34, 0x12] [] (id)) =
      some ⟨0x00, 0x00, 0x00, 0xFD, 0x1234, flags false false false true false false, 3, []⟩ := by
  decide +kernel

/-- T80 (R265): JMP indirect bug: high byte from 0x0200, not 0x0300. -/
theorem test_T80 :
    after (start [0x6C, 0xFF, 0x02] [(0x200, 0x56), (0x2FF, 0x78), (0x300, 0x99)] (id)) =
      some ⟨0x00, 0x00, 0x00, 0xFD, 0x5678, flags false false false true false false, 5, [(0x200, 0x56), (0x2FF, 0x78), (0x300, 0x99)]⟩ := by
  decide +kernel

/-- T81 (R266): JSR pushes 0x8002. -/
theorem test_T81 :
    after (start [0x20, 0x00, 0x90] [] (id)) =
      some ⟨0x00, 0x00, 0x00, 0xFB, 0x9000, flags false false false true false false, 6, [(0x1FC, 0x02), (0x1FD, 0x80)]⟩ := by
  decide +kernel

/-- T82 (R267): RTS: 0x8FFF + 1 = 0x9000. -/
theorem test_T82 :
    after (start [0x60] [(0x1FC, 0xFF), (0x1FD, 0x8F)] (fun c => { c with s := 0xFB })) =
      some ⟨0x00, 0x00, 0x00, 0xFD, 0x9000, flags false false false true false false, 6, [(0x1FC, 0xFF), (0x1FD, 0x8F)]⟩ := by
  decide +kernel

/-- T84 (R268): RTI: flags from 0xC3, PC = 0x9234 with no + 1. -/
theorem test_T84 :
    after (start [0x40] [(0x1FB, 0xC3), (0x1FC, 0x34), (0x1FD, 0x92)] (fun c => { c with s := 0xFA })) =
      some ⟨0x00, 0x00, 0x00, 0xFD, 0x9234, flags true true false false true true, 6, [(0x1FB, 0xC3), (0x1FC, 0x34), (0x1FD, 0x92)]⟩ := by
  decide +kernel

/-- T85 (R276): BNE not taken: 2 cycles. -/
theorem test_T85 :
    after (start [0xD0, 0x05] [] (fun c => { c with p := flags false false false true true false })) =
      some ⟨0x00, 0x00, 0x00, 0xFD, 0x8002, flags false false false true true false, 2, []⟩ := by
  decide +kernel

/-- T86 (R276): BNE taken, same page: 3 cycles, target 0x8002 + 5. -/
theorem test_T86 :
    after (start [0xD0, 0x05] [] (id)) =
      some ⟨0x00, 0x00, 0x00, 0xFD, 0x8007, flags false false false true false false, 3, []⟩ := by
  decide +kernel

/-- T87 (R277): BEQ with displacement -2: branch to itself, 3 cycles. -/
theorem test_T87 :
    after (start [0xF0, 0xFE] [] (fun c => { c with p := flags false false false true true false })) =
      some ⟨0x00, 0x00, 0x00, 0xFD, 0x8000, flags false false false true true false, 3, []⟩ := by
  decide +kernel

/-- T88 (R270): BPL taken, -3 crosses back into page 0x7F: 4 cycles. -/
theorem test_T88 :
    after (start [0x10, 0xFD] [] (id)) =
      some ⟨0x00, 0x00, 0x00, 0xFD, 0x7FFF, flags false false false true false false, 4, []⟩ := by
  decide +kernel

/-- T89 (R271): BMI taken +127, same page. -/
theorem test_T89 :
    after (start [0x30, 0x7F] [] (fun c => { c with p := flags true false false true false false })) =
      some ⟨0x00, 0x00, 0x00, 0xFD, 0x8081, flags true false false true false false, 3, []⟩ := by
  decide +kernel

/-- T90 (R272): BVC taken, -128 crosses a page: 4 cycles. -/
theorem test_T90 :
    after (start [0x50, 0x80] [] (id)) =
      some ⟨0x00, 0x00, 0x00, 0xFD, 0x7F82, flags false false false true false false, 4, []⟩ := by
  decide +kernel

/-- T91 (R273): BVS not taken. -/
theorem test_T91 :
    after (start [0x70, 0x10] [] (id)) =
      some ⟨0x00, 0x00, 0x00, 0xFD, 0x8002, flags false false false true false false, 2, []⟩ := by
  decide +kernel

/-- T92 (R274): BCC taken. -/
theorem test_T92 :
    after (start [0x90, 0x02] [] (id)) =
      some ⟨0x00, 0x00, 0x00, 0xFD, 0x8004, flags false false false true false false, 3, []⟩ := by
  decide +kernel

/-- T93 (R275): BCS taken. -/
theorem test_T93 :
    after (start [0xB0, 0x02] [] (fun c => { c with p := flags false false false true false true })) =
      some ⟨0x00, 0x00, 0x00, 0xFD, 0x8004, flags false false false true false true, 3, []⟩ := by
  decide +kernel

/-- T95 (R279): SEC. -/
theorem test_T95 :
    after (start [0x38] [] (id)) =
      some ⟨0x00, 0x00, 0x00, 0xFD, 0x8001, flags false false false true false true, 2, []⟩ := by
  decide +kernel

/-- T96 (R278): CLC. -/
theorem test_T96 :
    after (start [0x18] [] (fun c => { c with p := flags false false false true false true })) =
      some ⟨0x00, 0x00, 0x00, 0xFD, 0x8001, flags false false false true false false, 2, []⟩ := by
  decide +kernel

/-- T97 (R280): CLI. -/
theorem test_T97 :
    after (start [0x58] [] (id)) =
      some ⟨0x00, 0x00, 0x00, 0xFD, 0x8001, flags false false false false false false, 2, []⟩ := by
  decide +kernel

/-- T98 (R281): SEI. -/
theorem test_T98 :
    after (start [0x78] [] (fun c => { c with p := flags false false false false false false })) =
      some ⟨0x00, 0x00, 0x00, 0xFD, 0x8001, flags false false false true false false, 2, []⟩ := by
  decide +kernel

/-- T99 (R282): CLV. -/
theorem test_T99 :
    after (start [0xB8] [] (fun c => { c with p := flags false true false true false false })) =
      some ⟨0x00, 0x00, 0x00, 0xFD, 0x8001, flags false false false true false false, 2, []⟩ := by
  decide +kernel

/-- T100 (R284): SED. -/
theorem test_T100 :
    after (start [0xF8] [] (id)) =
      some ⟨0x00, 0x00, 0x00, 0xFD, 0x8001, flags false false true true false false, 2, []⟩ := by
  decide +kernel

/-- T101 (R283): CLD. -/
theorem test_T101 :
    after (start [0xD8] [] (fun c => { c with p := flags false false true true false false })) =
      some ⟨0x00, 0x00, 0x00, 0xFD, 0x8001, flags false false false true false false, 2, []⟩ := by
  decide +kernel

/-- T102 (R286): NOP. -/
theorem test_T102 :
    after (start [0xEA] [] (id)) =
      some ⟨0x00, 0x00, 0x00, 0xFD, 0x8001, flags false false false true false false, 2, []⟩ := by
  decide +kernel

/-- T104 (R285): BRK with I = 1 under the default parameter: 7 cycles, nothing else (60_exceptions.md rule R448). -/
theorem test_T104 :
    after (start [0x00, 0xEA] [] (id)) =
      some ⟨0x00, 0x00, 0x00, 0xFD, 0x8001, flags false false false true false false, 7, []⟩ := by
  decide +kernel

/-- T106 (R301): SLO: memory shifted left, then ORed into A. -/
theorem test_T106 :
    after (start [0x07, 0x10] [(0x10, 0x81)] (fun c => { c with a := 0x01 })) =
      some ⟨0x03, 0x00, 0x00, 0xFD, 0x8002, flags false false false true false true, 5, [(0x10, 0x02)]⟩ := by
  decide +kernel

/-- T107 (R301): SLO absolute,X 7 cycles. -/
theorem test_T107 :
    after (start [0x1F, 0xFF, 0x01] [(0x200, 0x40)] (fun c => { c with a := 0x00, x := 0x01 })) =
      some ⟨0x80, 0x01, 0x00, 0xFD, 0x8003, flags true false false true false false, 7, [(0x200, 0x80)]⟩ := by
  decide +kernel

/-- T108 (R302): RLA: rotate left then AND. -/
theorem test_T108 :
    after (start [0x27, 0x10] [(0x10, 0x80)] (fun c => { c with a := 0xFF, p := flags false false false true false true })) =
      some ⟨0x01, 0x00, 0x00, 0xFD, 0x8002, flags false false false true false true, 5, [(0x10, 0x01)]⟩ := by
  decide +kernel

/-- T109 (R303): SRE: shift right then EOR. -/
theorem test_T109 :
    after (start [0x47, 0x10] [(0x10, 0x03)] (fun c => { c with a := 0xFF })) =
      some ⟨0xFE, 0x00, 0x00, 0xFD, 0x8002, flags true false false true false true, 5, [(0x10, 0x01)]⟩ := by
  decide +kernel

/-- T110 (R304): RRA: rotate right (carry out 0, carry in to bit 7), then ADC with the new carry. -/
theorem test_T110 :
    after (start [0x67, 0x10] [(0x10, 0x02)] (fun c => { c with a := 0x10, p := flags false false false true false true })) =
      some ⟨0x91, 0x00, 0x00, 0xFD, 0x8002, flags true false false true false false, 5, [(0x10, 0x81)]⟩ := by
  decide +kernel

/-- T111 (R304): RRA: ROR gives 0x01 carry 1; 0x7F + 0x01 + 1 = 0x81 overflow. -/
theorem test_T111 :
    after (start [0x67, 0x10] [(0x10, 0x03)] (fun c => { c with a := 0x7F, p := flags false false false true false false })) =
      some ⟨0x81, 0x00, 0x00, 0xFD, 0x8002, flags true true false true false false, 5, [(0x10, 0x01)]⟩ := by
  decide +kernel

/-- T112 (R305): SAX stores A and X, no flags. -/
theorem test_T112 :
    after (start [0x87, 0x10] [] (fun c => { c with a := 0xF0, x := 0x3C })) =
      some ⟨0xF0, 0x3C, 0x00, 0xFD, 0x8002, flags false false false true false false, 3, [(0x10, 0x30)]⟩ := by
  decide +kernel

/-- T113 (R305): SAX (zp,X). -/
theorem test_T113 :
    after (start [0x83, 0x10] [(0x13, 0x03)] (fun c => { c with a := 0xFF, x := 0x02 })) =
      some ⟨0xFF, 0x02, 0x00, 0xFD, 0x8002, flags false false false true false false, 6, [(0x13, 0x03), (0x300, 0x02)]⟩ := by
  decide +kernel

/-- T114 (R306): LAX loads A and X. -/
theorem test_T114 :
    after (start [0xA7, 0x10] [(0x10, 0x8E)] (id)) =
      some ⟨0x8E, 0x8E, 0x00, 0xFD, 0x8002, flags true false false true false false, 3, [(0x10, 0x8E)]⟩ := by
  decide +kernel

/-- T115 (R306): LAX (zp),Y crossing: 6 cycles, zero. -/
theorem test_T115 :
    after (start [0xB3, 0x20] [(0x20, 0xFF), (0x21, 0x02)] (fun c => { c with y := 0x01 })) =
      some ⟨0x00, 0x00, 0x01, 0xFD, 0x8002, flags false false false true true false, 6, [(0x20, 0xFF), (0x21, 0x02)]⟩ := by
  decide +kernel

/-- T117 (R307): DCP: decrement then compare: equal. -/
theorem test_T117 :
    after (start [0xC7, 0x10] [(0x10, 0x10)] (fun c => { c with a := 0x0F })) =
      some ⟨0x0F, 0x00, 0x00, 0xFD, 0x8002, flags false false false true true true, 5, [(0x10, 0x0F)]⟩ := by
  decide +kernel

/-- T118 (R307): DCP (zp),Y: 8 cycles; memory 0xFF, A less. -/
theorem test_T118 :
    after (start [0xD3, 0x20] [(0x21, 0x03)] (fun c => { c with a := 0x00, y := 0x00 })) =
      some ⟨0x00, 0x00, 0x00, 0xFD, 0x8002, flags false false false true false false, 8, [(0x21, 0x03), (0x300, 0xFF)]⟩ := by
  decide +kernel

/-- T119 (R308): ISC: increment then subtract: zero. -/
theorem test_T119 :
    after (start [0xE7, 0x10] [(0x10, 0x0F)] (fun c => { c with a := 0x10, p := flags false false false true false true })) =
      some ⟨0x00, 0x00, 0x00, 0xFD, 0x8002, flags false false false true true true, 5, [(0x10, 0x10)]⟩ := by
  decide +kernel

/-- T120 (R308): ISC: memory wraps to 0, A - 0. -/
theorem test_T120 :
    after (start [0xFF, 0x00, 0x02] [(0x200, 0xFF)] (fun c => { c with a := 0x00, x := 0x00, p := flags false false false true false true })) =
      some ⟨0x00, 0x00, 0x00, 0xFD, 0x8003, flags false false false true true true, 7, []⟩ := by
  decide +kernel

/-- T121 (R315): 0xEB is SBC immediate. -/
theorem test_T121 :
    after (start [0xEB, 0x01] [] (fun c => { c with a := 0x00, p := flags false false false true false true })) =
      some ⟨0xFF, 0x00, 0x00, 0xFD, 0x8002, flags true false false true false false, 2, []⟩ := by
  decide +kernel

/-- T122 (R309): 1-byte NOP. -/
theorem test_T122 :
    after (start [0x1A] [] (fun c => { c with a := 0x55 })) =
      some ⟨0x55, 0x00, 0x00, 0xFD, 0x8001, flags false false false true false false, 2, []⟩ := by
  decide +kernel

/-- T123 (R310): 2-byte NOP, operand skipped. -/
theorem test_T123 :
    after (start [0x80, 0xFF] [] (id)) =
      some ⟨0x00, 0x00, 0x00, 0xFD, 0x8002, flags false false false true false false, 2, []⟩ := by
  decide +kernel

/-- T124 (R311): NOP zero page, 3 cycles, no read. -/
theorem test_T124 :
    after (start [0x04, 0x10] [] (id)) =
      some ⟨0x00, 0x00, 0x00, 0xFD, 0x8002, flags false false false true false false, 3, []⟩ := by
  decide +kernel

/-- T125 (R312): NOP zero page,X, 4 cycles. -/
theorem test_T125 :
    after (start [0x14, 0x10] [] (id)) =
      some ⟨0x00, 0x00, 0x00, 0xFD, 0x8002, flags false false false true false false, 4, []⟩ := by
  decide +kernel

/-- T126 (R313): NOP absolute naming port 2: no read, so vblank and w are untouched (92_eei_decisions.md D44). -/
theorem test_T126 :
    after (start [0x0C, 0x02, 0x20] [] (id)) =
      some ⟨0x00, 0x00, 0x00, 0xFD, 0x8003, flags false false false true false false, 4, []⟩ := by
  decide +kernel

/-- T127 (R314): NOP absolute,X crossing: 4 + 1. -/
theorem test_T127 :
    after (start [0x1C, 0xFF, 0x01] [] (fun c => { c with x := 0x01 })) =
      some ⟨0x00, 0x01, 0x00, 0xFD, 0x8003, flags false false false true false false, 5, []⟩ := by
  decide +kernel

/-- T128 (R314): NOP absolute,X not crossing: 4. -/
theorem test_T128 :
    after (start [0x1C, 0x00, 0x02] [] (fun c => { c with x := 0x01 })) =
      some ⟨0x00, 0x01, 0x00, 0xFD, 0x8003, flags false false false true false false, 4, []⟩ := by
  decide +kernel

/-- T105 (R285): with the parameter false BRK is taken though `I` is set; the three bytes pushed. -/
theorem test_T105 :
    after { start [0x00, 0xEA] [] id with config := { brkRespectsI := false } } =
      some ⟨0x00, 0x00, 0x00, 0xFA, 0x0000, { flags false false false true false false with b := true }, 7,
        [(0x1FB, 0x34), (0x1FC, 0x02), (0x1FD, 0x80)]⟩ := by
  decide +kernel

/-- T103 (R285), but that the vector here holds 0x0000: BRK taken with `I` clear. -/
theorem test_T103 :
    after (start [0x00, 0xEA] [] (fun c => { c with p := flags false false false false false false })) =
      some ⟨0x00, 0x00, 0x00, 0xFA, 0x0000, { flags false false false true false false with b := true }, 7,
        [(0x1FB, 0x30), (0x1FC, 0x02), (0x1FD, 0x80)]⟩ := by
  decide +kernel

/-- What a decode error reports. -/
def errorOf : Result → Option (Addr × Byte × Cpu)
  | .fault (.decodeError a op s) => some (a, op, s.cpu)
  | _ => none

/-- The page of a refused copy. -/
def refusedPage : Result → Option Byte
  | .refused (.dmaSourceUnspecified p) => some p
  | _ => none

/-- 2.6: the decode error at 0x02; the program counter is past it and `halted` records it; the next step reports it again. -/
theorem test_decode_error :
    let c : Cpu := { Cpu.reset 0x8001 with a := 1, halted := some { addr := 0x8000, opcode := 0x02 } }
    errorOf (step (start [0x02] [] (fun c => { c with a := 1 }))) = some (0x8000, 0x02, c) ∧
    errorOf (step (start [0x02] [] (fun _ => c))) = some (0x8000, 0x02, c) := by
  decide +kernel

/-- I5 (R450): the entry wraps in page 1. -/
theorem test_entry_wraps :
    (enter nmiVector false (start [] [] (fun c => { c with s := 0x01 }))).ram =
      [(0x101, 0x80), (0x1FF, 0x24)] ∧
    (enter nmiVector false (start [] [] (fun c => { c with s := 0x01 }))).cpu.s = 0xFE := by
  decide +kernel

/-- I3, I4 (R445, R447, R449): NMI before IRQ, and not maskable; IRQ only with `I` clear. -/
theorem test_poll :
    poll { start [] [] (fun c => { c with nmiPending := true }) with irqLine := true } = .nmi ∧
    poll { start [] [] id with irqLine := true } = .instruction ∧
    poll { start [] [] (fun c => { c with p := { c.p with i := false } }) with irqLine := true } = .irq := by
  decide

/-- I2 (R446): the IRQ entry pushes 0x80, 0x01 and 0x20 and costs 7 cycles. -/
theorem test_irq :
    after { start [] [] (fun c => { c with pc := 0x8001, p := { c.p with i := false } }) with irqLine := true } =
      some ⟨0x00, 0x00, 0x00, 0xFA, 0x0000, flags false false false true false false, 7,
        [(0x1FB, 0x20), (0x1FC, 0x01), (0x1FD, 0x80)]⟩ := by
  decide +kernel

/-! ## The bus and the ports (95_test_vectors.md 2.7 and 2.8) -/

/-- The state after a write that completes. -/
def wr (a : Addr) (v : Byte) (s : State) : State :=
  match memWrite a v s with
  | .next t => t
  | _ => s

/-- The state after a read. -/
def rd (a : Addr) (s : State) : State := (memRead a s).2

/-- V1, V2 (R344, R347): the address port, then two bytes through the data port. -/
theorem test_V1_V2 :
    (wr 0x2006 0x21 State.reset).ppu.t = 0x2100 ∧ (wr 0x2006 0x21 State.reset).ppu.v = 0 ∧
    (wr 0x2007 0x66 (wr 0x2007 0x55 (wr 0x2006 0x08 (wr 0x2006 0x21 State.reset)))).ppu.ntram =
      [(0x108, 0x55), (0x109, 0x66)] ∧
    (wr 0x2007 0x66 (wr 0x2007 0x55 (wr 0x2006 0x08 (wr 0x2006 0x21 State.reset)))).ppu.v = 0x210A := by
  decide +kernel

/-- V5 (R347, R348): a write to 0x3F10 lands in cell 0 and keeps 6 bits. -/
theorem test_V5 :
    (wr 0x2007 0xFF (wr 0x2006 0x10 (wr 0x2006 0x3F State.reset))).ppu.palette = [(0x00, 0x3F)] ∧
    (memRead 0x2007 (wr 0x2006 0x00 (wr 0x2006 0x3F
      (wr 0x2007 0xFF (wr 0x2006 0x10 (wr 0x2006 0x3F State.reset)))))).1 = 0x3F := by
  decide +kernel

/-- V8 (R336): two status reads; the hit flag is not cleared. -/
theorem test_V8 :
    let s := { State.reset with ppu := { State.reset.ppu with vblank := true, sprite0Hit := true, w := true, latch := 0x1F } }
    (memRead 0x2002 s).1 = 0xDF ∧ (memRead 0x2002 (rd 0x2002 s)).1 = 0x5F ∧ (rd 0x2002 s).ppu.w = false := by
  decide +kernel

/-- V9 (R338 to R341): the OAM address wraps on writes and stays on reads. -/
theorem test_V9 :
    let s := wr 0x2004 0x33 (wr 0x2004 0x22 (wr 0x2004 0x11 (wr 0x2003 0xFE State.reset)))
    s.ppu.oam = [(0x00, 0x33), (0xFE, 0x11), (0xFF, 0x22)] ∧ s.ppu.oamAddr = 0x01 ∧
    (memRead 0x2004 (wr 0x2003 0xFE s)).1 = 0x11 ∧ (memRead 0x2004 (rd 0x2004 (wr 0x2003 0xFE s))).1 = 0x11 := by
  decide +kernel

/-- V10 (R332, R342): scroll and control fill `t` and `x`. -/
theorem test_V10 :
    let s := wr 0x2000 0x03 (wr 0x2005 0x5E (wr 0x2005 0x7D State.reset))
    s.ppu.t = 0x6D6F ∧ s.ppu.x = 5 ∧ s.ppu.v = 0 := by
  decide +kernel

/-- V11, V12 (R336, R344, R330): a status read resets the toggle; a write-only port reads the latch. -/
theorem test_V11_V12 :
    (wr 0x2006 0x08 (wr 0x2006 0x21 (rd 0x2002 (wr 0x2006 0x3F State.reset)))).ppu.v = 0x2108 ∧
    (memRead 0x2002 (wr 0x2006 0x3F State.reset)).1 = 0x1F ∧
    (memRead 0x2005 (wr 0x2001 0x1E State.reset)).1 = 0x1E := by
  decide +kernel

/-- 2.7 (R89, R90): the collaborator's write is reported, an open-bus write has no effect. -/
theorem test_windows :
    wr 0x4000 0x3F State.reset = { State.reset with extWrites := [(0x4000, 0x3F)] } ∧
    wr 0x6000 0x01 State.reset = State.reset := by
  decide +kernel

/-- V13, V14 (R352): the copy wraps from `oam_addr` on and adds 513 cycles; page 0x20 is refused. -/
theorem test_dma :
    let s := { start [] [(0x200, 0xFF), (0x2FC, 0x03)] id with ppu := { State.reset.ppu with oamAddr := 0x04 } }
    (wr 0x4014 0x02 s).ppu.oam = [(0x00, 0x03), (0x04, 0xFF)] ∧ (wr 0x4014 0x02 s).dmaCycles = 513 ∧
    (wr 0x4014 0x02 s).ppu.oamAddr = 0x04 ∧ refusedPage (memWrite 0x4014 0x20 s) = some 0x20 := by
  decide +kernel

/-! ## The picture unit (95_test_vectors.md 2.9) -/

theorem test_coarseX : coarseXInc 0x001F = 0x0400 ∧ coarseXInc 0x041F = 0x0000 ∧ coarseXInc 0x7FFF = 0x7BE0 := by decide

theorem test_yInc :
    yInc 0x73A0 = 0x0800 ∧ yInc 0x73E0 = 0x0000 ∧ yInc 0x73C0 = 0x03E0 ∧ yInc 0x6000 = 0x7000 ∧ yInc 0x7000 = 0x0020 ∧
    yInc 0x7BA0 = 0x0000 := by
  decide

/-- A picture unit one dot before the position given. -/
def before (scanline dot : Nat) (f : Ppu → Ppu) : Ppu := f { State.reset.ppu with scanline := scanline, dot := dot - 1 }

/-- (241, 1): `vblank` begins and the NMI is raised (R376, R377); (261, 1): the flags are cleared (R378). -/
theorem test_vblank :
    let s := { State.reset with ppu := before 241 1 (fun u => { u with ctrl := 0x80 }) }
    (dotStep s).ppu.vblank = true ∧ (dotStep s).cpu.nmiPending = true ∧
    (Ppu.step .vertical (before 261 1 (fun u => { u with vblank := true, sprite0Hit := true }))).vblank = false ∧
    (Ppu.step .vertical (before 261 1 (fun u => { u with vblank := true, sprite0Hit := true }))).sprite0Hit = false := by
  decide +kernel

/-- (0, 256): `YInc` after the coarse X increment gives 0x1400; (0, 257): the horizontal copy gives 0x101F. -/
theorem test_scroll_dots :
    (Ppu.step .vertical (before 0 256 (fun u => { u with mask := 0x08, v := 0x001F }))).v = 0x1400 ∧
    (Ppu.step .vertical (before 0 257 (fun u => { u with mask := 0x08, v := 0x1400, t := 0x73FF }))).v = 0x101F ∧
    (Ppu.step .vertical (before 261 280 (fun u => { u with mask := 0x08, v := 0x081F, t := 0x73FF }))).v = 0x73FF := by
  decide +kernel

/-- The picture of the vector "Layer priority": two tiles, a sprite behind and a sprite in front. -/
def layers (v : BitVec 15) : Ppu :=
  { State.reset.ppu with
    v := v, mask := 0x18,
    pattern := Memory.ofBytes 16 (List.replicate 8 0xF0 ++ List.replicate 8 0x00 ++ List.replicate 16 0xFF),
    ntram := [(0, 1), (1, 1)],
    palette := [(0x00, 0x0F), (0x01, 0x11), (0x17, 0x27), (0x1B, 0x2B)],
    oam := Memory.ofBytes 0 ([0xF0, 0, 0, 0, 0x00, 0x02, 0x21, 0x02, 0x00, 0x02, 0x02, 0x0A] ++ List.replicate 244 0xF0) }

/-- The cell of pixel `px` of scanline 1. -/
def shown (v : BitVec 15) (px : Nat) : BitVec 6 := Frame.get (writePixel .vertical (layers v) px 1).frame 1 px

theorem test_layers :
    shown 0 0 = 0x11 ∧ shown 0 2 = 0x11 ∧ shown 0 4 = 0x27 ∧ shown 1 8 = 0x11 ∧ shown 1 10 = 0x2B ∧ shown 1 12 = 0x2B ∧
    shown 2 18 = 0x0F ∧ (writePixel .vertical (layers 0) 4 1).sprite0Hit = false := by
  decide +kernel

/-! ## Reset and the image (95_test_vectors.md 2.11 and E10) -/

theorem test_reset :
    let c := { Cartridge.blank with prg := [(0x3FFC, 0x23), (0x3FFD, 0xC1)] }
    (State.powerUp Config.default c MemInit.zero).cpu = Cpu.reset 0xC123 ∧ (Cpu.reset 0xC123).p.pack false = 0x24 := by
  decide +kernel

/-- An image: a header with the two block counts and `n` bytes after it. -/
def image (prg chr : Byte) (n : Nat) : List Byte :=
  [0x4E, 0x45, 0x53, 0x1A, prg, chr, 0, 0, 0, 0, 0, 0, 0, 0, 0, 0] ++ List.replicate n 0xAA

theorem image_header (prg chr : Byte) (n : Nat) :
    (image prg chr n).length = 16 + n ∧ (image prg chr n).take 4 = [0x4E, 0x45, 0x53, 0x1A] ∧
    (image prg chr n).getD 4 0 = prg ∧ (image prg chr n).getD 5 0 = chr := by
  refine ⟨?_, rfl, rfl, rfl⟩
  simp only [image, List.length_append, List.length_cons, List.length_nil, List.length_replicate]

/-- An image of the fixed mapping with all its bytes is accepted. -/
theorem image_accepted {prg chr : Byte} {n : Nat} {p : PrgBlocks} {c : Nat} (hp : prgBlocksOf prg = some p)
    (hc : chrBlocksOf chr = some c) (h : prgBytes p + 8192 * c ≤ n) :
    parseImage (image prg chr n) = .ok (cartridgeOf (image prg chr n) p c ((image prg chr n).getD 6 0)) := by
  obtain ⟨h1, h2, h3, h4⟩ := image_header prg chr n
  unfold parseImage
  rw [h1, h2, h3, h4, hp, hc, if_neg (by omega), if_neg (by simp)]
  dsimp only
  rw [if_neg (by omega)]

/-- E10: the lengths that are enough, one byte less, and block counts of another mapping. -/
theorem test_image_lengths :
    (∃ c, parseImage (image 1 1 24576) = .ok c ∧ c.chr.isSome = true) ∧
    parseImage (image 1 1 24575) = .error .truncated ∧ parseImage (image 3 1 24576) = .error .unsupportedMapping := by
  refine ⟨⟨_, image_accepted (p := .one) (c := 1) rfl rfl (by decide), rfl⟩, ?_, ?_⟩
  · obtain ⟨h1, h2, h3, h4⟩ := image_header 1 1 24575
    unfold parseImage
    rw [h1, h2, h3, h4]
    rfl
  · obtain ⟨h1, h2, h3, h4⟩ := image_header 3 1 24576
    unfold parseImage
    rw [h1, h2, h3, h4]
    rfl

/-- E10: a first byte 0x4D. -/
theorem test_image_signature : parseImage (0x4D :: List.replicate 15 0x00) = .error .invalidSignature := rfl

/-! ## Witnesses: each statement's hypotheses can be met -/

/-- O1. -/
theorem witness_DecodeAndEncodeAgree :
    (Instr.unmapped 0xBB).wellFormed = true ∧ decode [0x18, 0x00] = .ok (.clc, [0x00]) := ⟨rfl, rfl⟩

/-- O3. -/
theorem witness_StepRunsDecodedInstruction :
    let s := start [0xA9, 0x80] [] id
    s.cpu.halted = none ∧ poll (beginStep s) = .instruction ∧
    Spec.readBytes 2 s.cpu.pc (beginStep s) = ([0xA9, 0x80], s) ∧ decode [0xA9, 0x80] = .ok (.ldaImmediate 0x80, []) := by
  refine ⟨by decide, by decide +kernel, by decide +kernel, rfl⟩

/-- O4. -/
theorem witness_StepRunsStoredCode :
    let s := start [0xA9, 0x80] [] id
    s.cpu.halted = none ∧ poll (beginStep s) = .instruction ∧ (Instr.ldaImmediate 0x80).wellFormed = true ∧
    peek s s.cpu.pc = some 0xA9 ∧ peek s (s.cpu.pc + 1) = some 0x80 := by
  refine ⟨by decide, by decide +kernel, rfl, by decide +kernel, by decide +kernel⟩

/-- O5, O38. -/
theorem witness_running : State.reset.cpu.halted = none := by decide

/-- O6: a halted machine, and an image that `load_rom` accepts. -/
theorem witness_HaltedMachineReportsAgain :
    (start [] [] (fun c => { c with halted := some { addr := 0, opcode := 2 } })).cpu.halted =
      some { addr := 0, opcode := 2 } ∧
    ∃ cart, parseImage (image 1 1 24576) = .ok cart :=
  ⟨rfl, test_image_lengths.1.imp fun _ h => h.1⟩

/-- O7: an unmapped byte at the program counter, at both ends of the list. -/
theorem witness_UnmappedOpcodeStops :
    (0x02 : Byte) ∈ unmappedOpcodes ∧ (0xBB : Byte) ∈ unmappedOpcodes ∧
    let s := start [0x02] [] id
    s.cpu.halted = none ∧ poll (beginStep s) = .instruction ∧ (memRead s.cpu.pc (beginStep s)).1 = 0x02 := by
  refine ⟨by decide, by decide, by decide, by decide +kernel, by decide +kernel⟩

/-- O8: an instruction that writes nothing, and a store to the DMA trigger of pages at the boundaries of both clauses. -/
theorem witness_MappedInstructionsComplete :
    Instr.clc.mapped = true ∧ (∀ page, ¬ Spec.Writes .clc State.reset 0x4014 page) ∧
    (Instr.staAbsolute 0x4014).mapped = true ∧
    (∀ page : Byte, Spec.Writes (.staAbsolute 0x4014) (start [] [] (fun c => { c with a := page })) 0x4014 page) ∧
    ((0x1F : Byte).toNat < 0x20 ∧ 0x20 ≤ (0x20 : Byte).toNat ∧ (0x7F : Byte).toNat ≤ 0x7F ∧ 0x7F < (0x80 : Byte).toNat) ∧
    refusedPage (exec (.staAbsolute 0x4014) (start [] [] (fun c => { c with a := 0x7F }))) = some 0x7F := by
  refine ⟨rfl, ?_, rfl, fun page => ⟨.sta, _, _, _, .inl (.staAbsolute _), rfl, rfl⟩, by decide, by decide +kernel⟩
  rintro page ⟨k, op, m, n, h | h, -⟩ <;> cases h

/-- A step that completes from a well-formed state. -/
theorem start_steps : (start [0xA9, 0x80] [] id).wf = true ∧ ∃ t, step (start [0xA9, 0x80] [] id) = .next t :=
  ⟨by decide +kernel, ⟨_, rfl⟩⟩

/-- O10, O11, O12: a completed step and a decode error from well-formed states; the debt at 0 and above. -/
theorem witness_steps :
    ((start [0xA9, 0x80] [] id).wf = true ∧ ∃ t, step (start [0xA9, 0x80] [] id) = .next t) ∧
    ((start [0x02] [] id).wf = true ∧ ∃ t, step (start [0x02] [] id) = .fault (.decodeError 0x8000 0x02 t)) ∧
    (let s := { start [0xA9, 0x80] [] id with dotDebt := 3 }; s.wf = true ∧ ∃ t, step s = .next t) :=
  ⟨start_steps, ⟨by decide +kernel, ⟨_, rfl⟩⟩, ⟨by decide +kernel, ⟨_, rfl⟩⟩⟩

/-- O12: a step that makes a copy, and one that makes none. -/
theorem witness_StepAdvancesThreeDotsPerCycle :
    (let s := start [0x8D, 0x14, 0x40] [] (fun c => { c with a := 0x02 })
     s.wf = true ∧ (∃ t, step s = .next t) ∧ Spec.TriggersCopy (beginStep s)) ∧
    (let s := start [0x18] [] id; s.wf = true ∧ (∃ t, step s = .next t) ∧ ¬ Spec.TriggersCopy (beginStep s)) := by
  refine ⟨⟨by decide +kernel, ⟨_, rfl⟩, by decide +kernel, 0x02, .sta, 0x8D, .absolute 0x4014, 4, .inl ?_, rfl, ?_⟩,
    by decide +kernel, ⟨_, rfl⟩, ?_⟩
  · have h : (fetchInstr (beginStep (start [0x8D, 0x14, 0x40] [] (fun c => { c with a := 0x02 })))).1 =
        .staAbsolute 0x4014 := by decide +kernel
    rw [h]
    exact .staAbsolute _
  · decide +kernel
  · rintro ⟨-, page, k, op, m, n, h, -⟩
    have hc : (fetchInstr (beginStep (start [0x18] [] id))).1 = .clc := by decide +kernel
    rw [hc] at h
    rcases h with h | h <;> cases h

/-- O13, O14: an instruction that completes, with its mnemonic. -/
theorem witness_exec : Spec.mnemonic .tax = some .tax ∧ ∃ t, exec .tax State.reset = .next t := ⟨rfl, ⟨_, rfl⟩⟩

/-- O17 to O21 and O23: a row of each mnemonic of the reading instructions. -/
theorem witness_ReadRows (b : Byte) :
    Spec.ReadRow .lda 0xA9 (.ldaImmediate b) (.immediate b) (.fixed 2) ∧
    Spec.ReadRow .ldx 0xA2 (.ldxImmediate b) (.immediate b) (.fixed 2) ∧
    Spec.ReadRow .ldy 0xA0 (.ldyImmediate b) (.immediate b) (.fixed 2) ∧
    Spec.ReadRow .lax 0xB3 (.laxIndirectIndex b) (.memory (.indirectIndex b)) (.plusP 5) ∧
    Spec.ReadRow .and 0x29 (.andImmediate b) (.immediate b) (.fixed 2) ∧
    Spec.ReadRow .ora 0x09 (.oraImmediate b) (.immediate b) (.fixed 2) ∧
    Spec.ReadRow .eor 0x49 (.eorImmediate b) (.immediate b) (.fixed 2) ∧
    Spec.ReadRow .bit 0x24 (.bitZeropage b) (.memory (.zeropage b)) (.fixed 3) ∧
    Spec.ReadRow .cmp 0xC9 (.cmpImmediate b) (.immediate b) (.fixed 2) ∧
    Spec.ReadRow .cpx 0xE0 (.cpxImmediate b) (.immediate b) (.fixed 2) ∧
    Spec.ReadRow .cpy 0xC0 (.cpyImmediate b) (.immediate b) (.fixed 2) ∧
    Spec.ReadRow .adc 0x69 (.adcImmediate b) (.immediate b) (.fixed 2) ∧
    Spec.ReadRow .sbc 0xEB (.sbcImmediateEB b) (.immediate b) (.fixed 2) :=
  ⟨.ldaImmediate b, .ldxImmediate b, .ldyImmediate b, .laxIndirectIndex b, .andImmediate b, .oraImmediate b,
   .eorImmediate b, .bitZeropage b, .cmpImmediate b, .cpxImmediate b, .cpyImmediate b, .adcImmediate b, .sbcImmediateEB b⟩

/-- O23: a read of RAM and a read of a port complete; the first is from a cell. -/
theorem witness_ReadingInstructionsFrame :
    Spec.ReadRow .lda 0xAD (.ldaAbsolute 0x07FF) (.memory (.absolute 0x07FF)) (.fixed 4) ∧
    (∃ t, exec (.ldaAbsolute 0x07FF) State.reset = .next t) ∧
    (peek State.reset (effAddr (.absolute 0x07FF) State.reset).1.addr).isSome = true ∧
    (∃ t, exec (.ldaAbsolute 0x2002) State.reset = .next t) :=
  ⟨.ldaAbsolute _, ⟨_, rfl⟩, by decide, ⟨_, rfl⟩⟩

/-- O24 to O27: a row of each mnemonic of the storing and modifying instructions. -/
theorem witness_WriteRows (b : Byte) :
    Spec.WriteRow .sta 0x85 (.staZeropage b) (.zeropage b) 3 ∧ Spec.WriteRow .stx 0x86 (.stxZeropage b) (.zeropage b) 3 ∧
    Spec.WriteRow .sty 0x84 (.styZeropage b) (.zeropage b) 3 ∧ Spec.WriteRow .sax 0x87 (.saxZeropage b) (.zeropage b) 3 ∧
    Spec.ModifyRow .asl 0x06 (.aslZeropage b) (.zeropage b) 5 ∧ Spec.ModifyRow .lsr 0x46 (.lsrZeropage b) (.zeropage b) 5 ∧
    Spec.ModifyRow .rol 0x26 (.rolZeropage b) (.zeropage b) 5 ∧ Spec.ModifyRow .ror 0x66 (.rorZeropage b) (.zeropage b) 5 ∧
    Spec.ModifyRow .inc 0xE6 (.incZeropage b) (.zeropage b) 5 ∧ Spec.ModifyRow .dec 0xC6 (.decZeropage b) (.zeropage b) 5 ∧
    Spec.ModifyRow .slo 0x07 (.sloZeropage b) (.zeropage b) 5 ∧ Spec.ModifyRow .rla 0x27 (.rlaZeropage b) (.zeropage b) 5 ∧
    Spec.ModifyRow .sre 0x47 (.sreZeropage b) (.zeropage b) 5 ∧ Spec.ModifyRow .rra 0x67 (.rraZeropage b) (.zeropage b) 5 ∧
    Spec.ModifyRow .dcp 0xC7 (.dcpZeropage b) (.zeropage b) 5 ∧ Spec.ModifyRow .isc 0xE7 (.iscZeropage b) (.zeropage b) 5 :=
  ⟨.staZeropage b, .stxZeropage b, .styZeropage b, .saxZeropage b, .aslZeropage b, .lsrZeropage b, .rolZeropage b,
   .rorZeropage b, .incZeropage b, .decZeropage b, .sloZeropage b, .rlaZeropage b, .sreZeropage b, .rraZeropage b,
   .dcpZeropage b, .iscZeropage b⟩

/-- `Storable` at its boundaries. -/
theorem witness_Storable :
    Spec.Storable 0x4014 0x1F ∧ ¬ Spec.Storable 0x4014 0x20 ∧ ¬ Spec.Storable 0x4014 0x7F ∧ Spec.Storable 0x4014 0x80 ∧
    Spec.Storable 0x4013 0x20 ∧ Spec.Storable 0x4015 0x7F := by
  unfold Spec.Storable
  decide

/-- O28: a store to RAM, to a port, to the collaborator and a copy complete. -/
theorem witness_StoringInstructionsFrame :
    Spec.WriteRow .sta 0x8D (.staAbsolute 0x0000) (.absolute 0x0000) 4 ∧
    (∃ t, exec (.staAbsolute 0x0000) State.reset = .next t) ∧ (∃ t, exec (.staAbsolute 0x2007) State.reset = .next t) ∧
    (∃ t, exec (.staAbsolute 0x4017) State.reset = .next t) ∧ (∃ t, exec (.staAbsolute 0x4014) State.reset = .next t) ∧
    Spec.ModifyRow .inc 0xEE (.incAbsolute 0x1FFF) (.absolute 0x1FFF) 6 ∧
    (∃ t, exec (.incAbsolute 0x1FFF) State.reset = .next t) :=
  ⟨.staAbsolute _, ⟨_, rfl⟩, ⟨_, rfl⟩, ⟨_, rfl⟩, ⟨_, rfl⟩, .incAbsolute _, ⟨_, rfl⟩⟩

/-- O30, O33, O34, O39, O41, O42: the canonical form of RAM; and a state with `I` clear. -/
theorem witness_ram :
    Memory.wf 2048 State.reset.ram = true ∧
    (start [] [] (fun c => { c with p := { c.p with i := false } })).cpu.p.i = false := by
  decide

/-- O41: the two ways a BRK is not masked; in the first `I` is set. -/
theorem witness_ReturnUndoesEntry :
    (let s := { start [] [] id with config := { brkRespectsI := false } }
     Memory.wf 2048 s.ram = true ∧ s.config.brkRespectsI = false ∧ s.cpu.p.i = true) ∧
    (let s := start [] [] (fun c => { c with p := { c.p with i := false } })
     Memory.wf 2048 s.ram = true ∧ s.config.brkRespectsI = true ∧ s.cpu.p.i = false) := by
  decide

/-- O35: a branch of each mnemonic; a condition that holds and one that does not. -/
theorem witness_BranchesBranch (d : Byte) :
    (Spec.BranchRow .bpl 0x10 d (.bpl d) ∧ Spec.BranchRow .bmi 0x30 d (.bmi d) ∧ Spec.BranchRow .bvc 0x50 d (.bvc d) ∧
     Spec.BranchRow .bvs 0x70 d (.bvs d) ∧ Spec.BranchRow .bcc 0x90 d (.bcc d) ∧ Spec.BranchRow .bcs 0xB0 d (.bcs d) ∧
     Spec.BranchRow .bne 0xD0 d (.bne d) ∧ Spec.BranchRow .beq 0xF0 d (.beq d)) ∧
    Spec.condition .bpl Flags.reset = true ∧ Spec.condition .beq Flags.reset = false :=
  ⟨⟨.bpl d, .bmi d, .bvc d, .bvs d, .bcc d, .bcs d, .bne d, .beq d⟩, by decide, by decide⟩

/-- O37: rows of the NOPs. -/
theorem witness_NopsOnlyTakeTime (b : Byte) (w : Addr) :
    Spec.NopRow 0xEA [] .nop 2 ∧ Spec.NopRow 0x80 [b] (.nop80 b) 2 ∧ Spec.NopIndexedRow 0x1C w (.nop1C w) :=
  ⟨.nop, .nop80 b, .nop1C w⟩

/-- O38: each case of the poll. -/
theorem witness_InterruptsAreTakenAtTheBoundary :
    (start [] [] (fun c => { c with nmiPending := true })).cpu.nmiPending = true ∧
    (let s := { start [] [] (fun c => { c with p := { c.p with i := false } }) with irqLine := true }
     s.cpu.halted = none ∧ s.cpu.nmiPending = false ∧ s.irqLine = true ∧ s.cpu.p.i = false) ∧
    (State.reset.cpu.nmiPending = false ∧ State.reset.irqLine = false) := by
  decide

/-- O40: BRK masked, and BRK taken for either reason. -/
theorem witness_BrkEntersOrIsMasked :
    (State.reset.config.brkRespectsI = true ∧ State.reset.cpu.p.i = true) ∧
    ({ State.reset with config := { brkRespectsI := false } } : State).config.brkRespectsI = false ∧
    (start [] [] (fun c => { c with p := { c.p with i := false } })).cpu.p.i = false := by
  decide

/-- O42: two addresses of one cell at the ends of the region, and two of different cells. -/
theorem witness_RamMirrorsAreOneArray :
    (0x1FFF : Addr).toNat < 0x2000 ∧ (0x07FF : Addr).toNat < 0x2000 ∧
    (0x1FFF : Addr).toNat % 0x800 = (0x07FF : Addr).toNat % 0x800 ∧
    (0x0000 : Addr).toNat % 0x800 ≠ (0x07FF : Addr).toNat % 0x800 := by
  decide

/-- O43: every clause at the ends of its ranges. -/
theorem witness_RomAndWindows :
    (0x8000 ≤ (0x8000 : Addr).toNat ∧ 0x8000 ≤ (0xFFFF : Addr).toNat) ∧ Cartridge.blank.prgBlocks = .one ∧
    ({ Cartridge.blank with prgBlocks := .two } : Cartridge).prgBlocks = .two ∧
    (0x4018 ≤ (0x4018 : Addr).toNat ∧ (0x7FFF : Addr).toNat < 0x8000) ∧
    (0x4000 ≤ (0x4000 : Addr).toNat ∧ (0x4013 : Addr) ≠ 0x4014 ∧ (0x4015 : Addr) ≠ 0x4014 ∧
      (0x4017 : Addr).toNat < 0x4018) := by
  decide

/-- 95_test_vectors.md 2.7 (R86): 0x8000 and 0xC000 are one byte with one program block and two with two blocks. -/
theorem test_rom_mirror :
    let s := start [0x11] [] id
    (memRead 0x8000 s).1 = 0x11 ∧ (memRead 0xC000 s).1 = 0x11 ∧
    (memRead 0xC000 { s with cart := { s.cart with prgBlocks := .two } }).1 = 0x00 := by
  decide +kernel

/-- O44: the pages at the boundaries of the two clauses. -/
theorem witness_OamDmaCopiesAPage :
    Memory.wf 256 State.reset.ppu.oam = true ∧ (0x1F : Byte).toNat < 0x20 ∧ 0x80 ≤ (0x80 : Byte).toNat ∧
    (0x20 ≤ (0x20 : Byte).toNat ∧ (0x20 : Byte).toNat ≤ 0x7F) ∧ (0x20 ≤ (0x7F : Byte).toNat ∧ (0x7F : Byte).toNat ≤ 0x7F) := by
  decide

/-- O45 to O49: every port at both ends of the window. -/
theorem witness_ports :
    (∀ k : Fin 8, 0x2000 ≤ (0x2000 + k.val) ∧ (BitVec.ofNat 16 (0x2000 + k.val)).toNat % 8 = k.val) ∧
    (∀ k : Fin 8, (BitVec.ofNat 16 (0x3FF8 + k.val)).toNat < 0x4000 ∧
      (BitVec.ofNat 16 (0x3FF8 + k.val)).toNat % 8 = k.val) := by
  decide

/-- O47: the video address at the two sides of the palette's start. -/
theorem witness_DataPort :
    (0x3EFF : BitVec 15).toNat % 0x4000 < 0x3F00 ∧ 0x3F00 ≤ (0x3F00 : BitVec 15).toNat % 0x4000 ∧
    0x3F00 ≤ (0x7FFF : BitVec 15).toNat % 0x4000 := by
  decide

/-- O48: the toggle in both positions. -/
theorem witness_ScrollAndAddressPorts :
    State.reset.ppu.w = false ∧ (wr 0x2005 0 State.reset).ppu.w = true := by
  decide

/-- O49, O50, O53, O58: a well-formed picture unit. -/
theorem witness_ppu : State.reset.ppu.wf = true ∧ (layers 0).wf = true := by decide +kernel

/-- O50: each clause at its boundaries. -/
theorem witness_VideoSpaceMirrors :
    let u := State.reset.ppu
    vramRead .vertical (vramWrite .vertical u 0x1FFF 0x55) 0x5FFF = 0x55 ∧
    vramRead .vertical (vramWrite .vertical u 0x2EFF 0x55) 0x3EFF = 0x55 ∧
    vramRead .vertical (vramWrite .vertical u 0x2000 0x55) 0x2800 = 0x55 ∧
    vramRead .vertical (vramWrite .vertical u 0x2000 0x55) 0x2400 = 0x00 ∧
    vramRead .horizontal (vramWrite .horizontal u 0x2FFF 0x55) 0x2BFF = 0x55 ∧
    vramRead .horizontal (vramWrite .horizontal u 0x2FFF 0x55) 0x27FF = 0x00 ∧
    vramRead .vertical (vramWrite .vertical u 0x3F00 0xFF) 0x3F10 = 0x3F ∧
    vramRead .vertical (vramWrite .vertical u 0x3FFF 0xFF) 0x3F1F = 0x3F ∧
    vramRead .vertical (vramWrite .vertical u 0x3FFF 0xFF) 0x3F0F = 0x00 ∧
    vramRead .vertical (vramWrite .vertical u 0x3EFF 0x55) 0x26FF = 0x55 ∧
    vramRead .vertical (vramWrite .vertical u 0x3EFF 0x55) 0x2AFF = 0x00 ∧
    vramRead .horizontal (vramWrite .horizontal u 0x3000 0x55) 0x2400 = 0x55 ∧
    vramRead .vertical (vramWrite .vertical u 0x3F00 0x15) 0x2F00 = 0x00 ∧
    vramRead .vertical (vramWrite .vertical u 0x2000 0x15) 0x0000 = 0x00 := by
  decide +kernel

/-- O50: addresses of one cell and of two, at the ends of the regions. -/
theorem witness_SameVideoCell :
    Spec.SameVideoCell .vertical 0x1FFF 0x1FFF ∧ ¬ Spec.SameVideoCell .vertical 0x1FFF 0x2000 ∧
    Spec.SameVideoCell .vertical 0x3EFF 0x2EFF ∧ Spec.SameVideoCell .horizontal 0x3000 0x2400 ∧
    ¬ Spec.SameVideoCell .vertical 0x3EFF 0x3F1F ∧ Spec.SameVideoCell .vertical 0x3F00 0x3FF0 ∧
    ¬ Spec.SameVideoCell .vertical 0x3F01 0x3F11 := by
  simp [Spec.SameVideoCell]

/-- Nine sprites on scanlines 1 to 8, and eight: the other entries are below the picture. -/
def sprites (n : Nat) : Ppu :=
  { State.reset.ppu with mask := 0x10, oam := Memory.ofBytes 0 (List.replicate (4 * n) 0x00 ++ List.replicate (256 - 4 * n) 0xF0) }

/-- O51 (R396): nine entries on a scanline set the overflow flag at its dot 1 and eight do not; nor does the scanline
after the last they cover, nor dot 2, nor nine with rendering disabled. -/
theorem test_overflow :
    let after := fun (u : Ppu) (y x : Nat) => (Ppu.step .vertical { u with scanline := y, dot := x - 1 }).spriteOverflow
    Spec.covering (sprites 9) 8 = 9 ∧ Spec.covering (sprites 8) 8 = 8 ∧
    after (sprites 9) 1 1 = true ∧ after (sprites 9) 8 1 = true ∧ after (sprites 8) 8 1 = false ∧
    after (sprites 9) 9 1 = false ∧ after (sprites 9) 8 2 = false ∧ after { sprites 9 with mask := 0x00 } 8 1 = false := by
  decide +kernel

/-- O51: each of the two positions, and another. -/
theorem witness_VerticalBlankFlags :
    let at_ := fun y x => Ppu.step .vertical (before y x id)
    ((at_ 241 1).scanline = 241 ∧ (at_ 241 1).dot = 1) ∧ ((at_ 261 1).scanline = 261 ∧ (at_ 261 1).dot = 1) ∧
    ((at_ 240 1).scanline = 240 ∧ (at_ 240 1).dot = 1) := by
  decide +kernel

/-- O53: rendering disabled, and a cell that is not the dot's. -/
theorem witness_RendererWritesOnlyItsOwn :
    let w := Ppu.step .vertical (before 0 1 id)
    State.reset.ppu.mask.getLsbD 3 = false ∧ State.reset.ppu.mask.getLsbD 4 = false ∧
    ¬(w.scanline = 1 ∧ 1 ≤ 239 ∧ w.dot = 0 + 1 ∧ w.dot ≤ 256) := by
  decide +kernel

/-- O54: each clause at a boundary of its dots. -/
theorem witness_RendererMovesV :
    let at_ := fun y x => Ppu.step .vertical (before y x (fun u => { u with mask := 0x08 }))
    (before 0 8 (fun u => { u with mask := 0x08 })).mask.getLsbD 3 = true ∧
    ((at_ 239 248).scanline ≤ 239 ∧ (at_ 239 248).dot = 248) ∧ ((at_ 239 256).scanline ≤ 239 ∧ (at_ 239 256).dot = 256) ∧
    ((at_ 261 257).scanline = 261 ∧ (at_ 261 257).dot = 257) ∧ ((at_ 261 280).scanline = 261 ∧ (at_ 261 280).dot = 280) ∧
    ((at_ 261 304).scanline = 261 ∧ (at_ 261 304).dot = 304) ∧ ((at_ 0 255).dot = 255 ∧ (at_ 0 258).dot = 258) ∧
    ((at_ 240 1).scanline = 240 ∧ (at_ 260 1).scanline = 260) ∧
    ((at_ 261 279).scanline = 261 ∧ (at_ 261 279).dot = 279 ∧ (at_ 261 305).dot = 305 ∧ (at_ 261 256).dot = 256) := by
  decide +kernel

/-- O54: the fields at the boundaries of the clauses of the two steps. -/
theorem witness_scroll_fields :
    ((0x041F : BitVec 15).extractLsb' 0 5).toNat = 31 ∧ ((0x041E : BitVec 15).extractLsb' 0 5).toNat = 30 ∧
    ((0x6000 : BitVec 15).extractLsb' 12 3).toNat = 6 ∧ ((0x73A0 : BitVec 15).extractLsb' 12 3).toNat = 7 ∧
    ((0x73A0 : BitVec 15).extractLsb' 5 5).toNat = 29 ∧ ((0x73C0 : BitVec 15).extractLsb' 5 5).toNat = 30 ∧
    ((0x73E0 : BitVec 15).extractLsb' 5 5).toNat = 31 := by
  decide

/-- The picture unit of the worked example of 47_ppu_timing_render.md R397. -/
def workedExample : Ppu :=
  { State.reset.ppu with
    ctrl := 0x10, mask := 0x08, x := 3, v := 0x2005, ntram := [(5, 0x41), (6, 0x42), (0x3C1, 0x0C)],
    pattern := [(0x1422, 0x20), (0x142A, 0x20)], palette := [(0x0F, 0x2A)] }

/-- O55 (R397): the pixel from the tile after `v`'s own is transparent at 6 and colour 3 of palette 3 at 7; the layer
shown and not shown. -/
theorem test_R397 :
    bgPixel .vertical workedExample 6 = { colour := 0, palette := 3 } ∧
    bgPixel .vertical workedExample 7 = { colour := 3, palette := 3 } ∧
    Frame.get (writePixel .vertical workedExample 7 10).frame 10 7 = 0x2A ∧
    workedExample.mask.getLsbD 3 = true ∧ State.reset.ppu.mask.getLsbD 3 = false := by
  decide +kernel

/-- O56: an entry with a pixel at both ends of its square, none outside it, and a scanline with none. -/
theorem witness_SpritePixel :
    let u := { sprites 1 with pattern := [(0, 0x81), (7, 0x81)] }
    (spriteAt .vertical u 0 1 0).isSome = true ∧ (spriteAt .vertical u 7 8 0).isSome = true ∧
    spriteAt .vertical u 1 1 0 = none ∧ spriteAt .vertical u 8 1 0 = none ∧ spriteAt .vertical u 0 9 0 = none ∧
    spPixel .vertical u 0 1 = spriteAt .vertical u 0 1 0 ∧ spPixel .vertical u 0 9 = none ∧
    u.mask.getLsbD 4 = true ∧ State.reset.ppu.mask.getLsbD 4 = false := by
  decide +kernel

/-- O57, O58: the dots 1 and 256 of visible scanlines, and two outside. -/
theorem witness_pixel_dots :
    let at_ := fun y x => Ppu.step .vertical (before y x id)
    ((at_ 0 1).scanline = 0 ∧ (at_ 0 1).dot = 1) ∧ ((at_ 239 256).scanline = 239 ∧ (at_ 239 256).dot = 256) ∧
    ((at_ 240 1).scanline = 240 ∧ (at_ 239 257).dot = 257) := by
  decide +kernel

/-- O58: each layer wins somewhere, and each mask bit can be clear. -/
theorem witness_PixelShowsTheWinningLayer :
    ((bgPixel .vertical (layers 2) 18).colour = 0 ∧ spPixel .vertical (layers 2) 18 1 = none) ∧
    ((bgPixel .vertical (layers 0) 0).colour ≠ 0 ∧ spPixel .vertical (layers 0) 0 1 = none) ∧
    ((bgPixel .vertical (layers 0) 2).colour ≠ 0 ∧ (spPixel .vertical (layers 0) 2 1).map (·.behind) = some true) ∧
    ((bgPixel .vertical (layers 0) 4).colour = 0 ∧ (spPixel .vertical (layers 0) 4 1).map (·.behind) = some true) ∧
    ((bgPixel .vertical (layers 1) 10).colour ≠ 0 ∧ (spPixel .vertical (layers 1) 10 1).map (·.behind) = some false) ∧
    State.reset.ppu.mask.getLsbD 3 = false ∧ State.reset.ppu.mask.getLsbD 4 = false := by
  decide +kernel

/-! ### O59: a `run_frame` that completes: a machine that jumps to itself for a whole frame -/

/-- `JMP $8000` at 0x8000, the NMI disabled. -/
def idle : State := start [0x4C, 0x00, 0x80] [] id

/-- What a turn of the idle machine leaves: the registers, the program, the NMI disabled and the input line low. -/
def Idle (s : State) : Prop := s.cpu = idle.cpu ∧ s.cart = idle.cart ∧ s.ppu.ctrl = 0 ∧ s.irqLine = false

theorem Idle.dotStep {s : State} (h : Idle s) : Idle (dotStep s) := by
  obtain ⟨h1, h2, h3, h4⟩ := h
  have hr : raisesNmi (advance s.ppu) = false := by
    have : (advance s.ppu).ctrl = s.ppu.ctrl := by unfold advance; split <;> rfl
    simp [raisesNmi, this, h3]
  refine ⟨?_, h2, ?_, h4⟩
  · have hc : (Machine.dotStep s).cpu = { s.cpu with nmiPending := s.cpu.nmiPending || raisesNmi (advance s.ppu) } := rfl
    rw [hc, hr, h1]
    rfl
  · obtain ⟨v, vb, s0, ov, f, e⟩ := Ppu.step_rendered s.cart.mirroring s.ppu
    have ha : (advance s.ppu).ctrl = s.ppu.ctrl := by unfold advance; split <;> rfl
    rw [dotStep_ppu, e]
    exact ha.trans h3

theorem Idle.runDots {s : State} (h : Idle s) (k : Nat) : Idle (runDots k s) := by
  induction k generalizing s with
  | zero => exact h
  | succ k ih => exact ih h.dotStep

/-- The three bytes of the jump. -/
theorem idle_bytes {s : State} (h : s.cart = idle.cart) :
    memRead 0x8000 s = (0x4C, s) ∧ memRead 0x8001 s = (0x00, s) ∧ memRead 0x8002 s = (0x80, s) := by
  have hb : Memory.get idle.cart.prg (idle.cart.romIndex 0x8000) = 0x4C ∧
      Memory.get idle.cart.prg (idle.cart.romIndex 0x8001) = 0x00 ∧
      Memory.get idle.cart.prg (idle.cart.romIndex 0x8002) = 0x80 := by
    decide +kernel
  rw [memRead_of_route_rom (route_rom (by decide)), memRead_of_route_rom (route_rom (by decide)),
    memRead_of_route_rom (route_rom (by decide)), h, hb.1, hb.2.1, hb.2.2]
  exact ⟨rfl, rfl, rfl⟩

/-- A turn of the idle machine: the jump, 3 cycles. -/
theorem Idle.cpuStep {s : State} (h : Idle s) :
    Machine.cpuStep { s with dmaCycles := 0 } = .next { s with dmaCycles := 0, cycles := 3 } := by
  obtain ⟨h1, h2, -, h4⟩ := h
  have hf : fetchInstr { s with dmaCycles := 0 } = (.jmpAbsolute 0x8000, { s with dmaCycles := 0 }.setPc 0x8003) := by
    have hpc : s.cpu.pc = 0x8000 := by rw [h1]; rfl
    have e0 := (idle_bytes (s := { s with dmaCycles := 0 }) h2).1
    have e1 := (idle_bytes (s := { s with dmaCycles := 0 }.setPc 0x8001) h2).2.1
    have e2 := (idle_bytes (s := { s with dmaCycles := 0 }.setPc 0x8002) h2).2.2
    have f0 : fetch8 { s with dmaCycles := 0 } = (0x4C, { s with dmaCycles := 0 }.setPc 0x8001) := by
      simp only [fetch8, hpc, e0]; rfl
    have f1 : fetch8 ({ s with dmaCycles := 0 }.setPc 0x8001) = (0x00, { s with dmaCycles := 0 }.setPc 0x8002) := by
      show ((memRead 0x8001 _).1, (memRead 0x8001 _).2.setPc _) = _
      rw [e1]; rfl
    have f2 : fetch8 ({ s with dmaCycles := 0 }.setPc 0x8002) = (0x80, { s with dmaCycles := 0 }.setPc 0x8003) := by
      show ((memRead 0x8002 _).1, (memRead 0x8002 _).2.setPc _) = _
      rw [e2]; rfl
    have f : formatOf 0x4C = .f3 .jmpAbsolute := rfl
    simp only [fetchInstr, f0, f, fetch16, f1, f2]
    rfl
  have hh : s.cpu.halted = none := by rw [h1]; rfl
  have hn : s.cpu.nmiPending = false := by rw [h1]; rfl
  have hp : poll { s with dmaCycles := 0 } = .instruction := by simp [poll, hn, h4]
  unfold Machine.cpuStep
  dsimp only
  rw [hh, hp]
  dsimp only
  rw [hf]
  have hs : s.cpu = { s.cpu with pc := 0x8000 } := by rw [h1]; rfl
  show Host.Outcome.next ({ s with dmaCycles := 0, cycles := 3, cpu := { s.cpu with pc := 0x8000 } } : State) = _
  rw [← hs]

theorem Idle.frameLoop (fuel budget : Nat) {s : State} (h : Idle s) : ∃ t, Machine.frameLoop fuel budget [] s = .next t := by
  induction fuel generalizing budget s with
  | zero => exact ⟨s, rfl⟩
  | succ fuel ih =>
    unfold Machine.frameLoop
    split
    · exact ⟨s, rfl⟩
    · simp only [presentIrq, h.cpuStep, Result.andThen_next, List.tail_nil]
      refine ih _ (Idle.runDots (s := { s with dmaCycles := 0, cycles := 3, dotDebt := _ }) ?_ _)
      exact h

theorem witness_RunFrameIsOneFrame :
    idle.wf = true ∧ idle.dotDebt ≤ 1562 ∧ ∃ t, runFrame [] idle = .next t := by
  refine ⟨by decide +kernel, by decide, ?_⟩
  have h : Idle idle := ⟨rfl, rfl, rfl, rfl⟩
  obtain ⟨t, ht⟩ := Idle.frameLoop dotsPerFrame (dotsPerFrame - min idle.dotDebt dotsPerFrame)
    (s := { Machine.runDots (min idle.dotDebt dotsPerFrame) idle with
      dotDebt := idle.dotDebt - min idle.dotDebt dotsPerFrame }) (h.runDots _)
  have hh : idle.cpu.halted = none := rfl
  refine ⟨{ t with published := some t.ppu.frame }, ?_⟩
  unfold runFrame
  simp only [hh, ht, Result.andThen_next]

/-- O60: an image with pattern data, one without, and one that is rejected. -/
theorem witness_LoadRomReadsTheImage :
    (∃ c, parseImage (image 1 1 24576) = .ok c ∧ c.chr.isSome = true) ∧
    (∃ c, parseImage (image 2 0 32768) = .ok c ∧ c.chr = none) ∧
    (∃ e, parseImage (0x4D :: List.replicate 15 0x00) = .error e) :=
  ⟨test_image_lengths.1, ⟨_, image_accepted (p := .two) (c := 0) rfl rfl (by decide), rfl⟩, ⟨_, test_image_signature⟩⟩

/-- D47: a rejected image leaves a loaded session as it was. -/
theorem test_load_rom_rejected (init : MemInit) (s : State) :
    Session.loadRom (0x4D :: List.replicate 15 0x00) init (some s) = (some s, .error (.load .invalidSignature)) := by
  unfold Session.loadRom
  rw [test_image_signature]

end Sys2Proof.Tests
end

section
/-! The proofs about the memory map (20_memory.md): RAM and its mirrors. -/

namespace Sys2Proof.Machine

/-- A read below 0x2000 is the cell at the address modulo the size of RAM (20_memory.md R84). -/
theorem memRead_below_ports {a : Addr} (h : a.toNat < 0x2000) (s : State) :
    memRead a s = (Memory.get s.ram (a.toNat % 0x800), s) :=
  memRead_of_route_ram (route_ram h)

/-- A write below 0x2000 sets the cell at the address modulo the size of RAM (20_memory.md R84). -/
theorem memWrite_below_ports {a : Addr} (h : a.toNat < 0x2000) (v : Byte) (s : State) :
    memWrite a v s = .next { s with ram := Memory.set s.ram (a.toNat % 0x800) v } := by
  rw [memWrite_of_ne v (by omega), busStore_of_route_ram v (route_ram h)]

/-- Settles O42: both accesses fold the address modulo 0x800 onto one cell of RAM, so the read after the write is the
law of the cell memory. -/
theorem ramMirrorsAreOneArray : Obligations.RamMirrorsAreOneArray := by
  intro a b v s hwf ha hb
  refine ⟨_, memWrite_below_ports ha v s, rfl, ?_, ?_⟩
  · rw [memRead_below_ports hb]
  · rw [memRead_below_ports hb, memRead_below_ports hb, Memory.get_set hwf]
    simp only [eq_comm]

end Sys2Proof.Machine
end

section
/-! The reading instructions (40_addressing.md R177): their bytes, their class, and what the class does in terms of
`Spec.readResult`. The rows of all thirteen mnemonics are treated once, for the families 41, 42, 43 and 45. -/

namespace Sys2Proof.Machine

/-- The model's `SetNZ` is the spec's, which speaks of the byte as a number (10_state.md R28). -/
theorem Flags.setNZ_eq_nz (p : Flags) (v : Byte) : p.setNZ v = Spec.nz p v := by
  have hz : v = 0 ↔ v.toNat = 0 := BitVec.toNat_eq
  simp only [Flags.setNZ, Spec.nz, bit7_iff, hz]

/-- The cost of a cycle column, with its `+p` as a case distinction (30_encoding.md R143). -/
theorem Cost.total_plusP (n : Nat) (crossed : Bool) :
    (Cost.plusP n).total crossed = if crossed then n + 1 else n := by
  cases crossed <;> rfl

/-- An instruction of the class `read` whose effect touches the registers only is the spec's reading instruction. -/
theorem readClass_eq_readResult {f : Byte → State → State} {g : Byte → Cpu → Cpu}
    (hf : ∀ m s, f m s = { s with cpu := g m s.cpu }) (src : Source) (c : Cost) (s : State) :
    readClass f src c s = .next (Spec.readResult src c g s) := by
  cases src with
  | immediate b =>
    rw [readClass_immediate, hf]
    cases c <;> rfl
  | memory m =>
    rw [readClass_memory, hf, memRead_cpu]
    cases c with
    | fixed n => rfl
    | plusP n => rw [Cost.total_plusP]; rfl

/-- What each reading mnemonic does with its operand; the other mnemonics read none. -/
def readEffect : Spec.Mnemonic → Byte → State → State
  | .lda => loadA
  | .ldx => loadX
  | .ldy => loadY
  | .lax => loadAX
  | .and => andA
  | .ora => oraA
  | .eor => eorA
  | .bit => bitA
  | .cmp => compareA
  | .cpx => compareX
  | .cpy => compareY
  | .adc => addA
  | .sbc => subtractA
  | _ => fun _ s => s

/-- Every row runs its mnemonic's effect through the class `read`, with the row's operand source and cycle column. -/
theorem exec_eq_readClass {k : Spec.Mnemonic} {op : Byte} {i : Instr} {src : Source} {c : Cost}
    (h : Spec.ReadRow k op i src c) (s : State) : exec i s = readClass (readEffect k) src c s := by
  cases h <;> rfl

/-- Every row is encoded by its opcode byte and the bytes of its operand. -/
theorem encode_eq_sourceBytes {k : Spec.Mnemonic} {op : Byte} {i : Instr} {src : Source} {c : Cost}
    (h : Spec.ReadRow k op i src c) : encode i = op :: Spec.sourceBytes src := by
  cases h <;> rfl

/-- A row whose mnemonic acts on the registers as `g` completes as the spec's reading instruction with `g`. -/
theorem exec_eq_readResult {k : Spec.Mnemonic} {op : Byte} {i : Instr} {src : Source} {c : Cost}
    {g : Byte → Cpu → Cpu} (h : Spec.ReadRow k op i src c)
    (hk : ∀ m s, readEffect k m s = { s with cpu := g m s.cpu }) (s : State) :
    exec i s = .next (Spec.readResult src c g s) := by
  rw [exec_eq_readClass h, readClass_eq_readResult hk]

/-! ## The loads (41_load_store_transfer.md R180 to R182, 45_unofficial.md R306) -/

theorem loadA_eq (m : Byte) (s : State) : loadA m s = { s with cpu := Spec.toA m s.cpu } := by
  rw [Spec.toA, ← Flags.setNZ_eq_nz]
  rfl

theorem loadX_eq (m : Byte) (s : State) : loadX m s = { s with cpu := Spec.toX m s.cpu } := by
  rw [Spec.toX, ← Flags.setNZ_eq_nz]
  rfl

theorem loadY_eq (m : Byte) (s : State) : loadY m s = { s with cpu := Spec.toY m s.cpu } := by
  rw [Spec.toY, ← Flags.setNZ_eq_nz]
  rfl

theorem loadAX_eq (m : Byte) (s : State) :
    loadAX m s = { s with cpu := { s.cpu with a := m, x := m, p := Spec.nz s.cpu.p m } } := by
  rw [← Flags.setNZ_eq_nz]
  rfl

/-- Settles O17: each load's row runs the class `read`, whose effect on the registers is that of the load. -/
theorem loadsLoad : Obligations.LoadsLoad := by
  intro k op i src c s h
  refine ⟨fun _ => encode_eq_sourceBytes h, ?lda, ?ldx, ?ldy, ?lax⟩
  case lda => rintro rfl; exact exec_eq_readResult h loadA_eq s
  case ldx => rintro rfl; exact exec_eq_readResult h loadX_eq s
  case ldy => rintro rfl; exact exec_eq_readResult h loadY_eq s
  case lax => rintro rfl; refine exec_eq_readResult h ?_ s; exact loadAX_eq

end Sys2Proof.Machine
end

section
/-! The logic operations and BIT (42_logic_shift_bit.md R210 to R212, R217). -/

namespace Sys2Proof.Machine

/-- Bit 6 of a byte as a comparison of its low seven bits (42_logic_shift_bit.md R217, the flag `V`). -/
theorem bit6_iff (b : Byte) : b.getLsbD 6 = decide (64 ≤ b.toNat % 128) := by
  have hmod : b.toNat / 2 ^ 6 % 2 = 1 ↔ 64 ≤ b.toNat % 128 := by omega
  simp only [BitVec.getLsbD, Nat.testBit_eq_decide_div_mod_eq, hmod]

/-- The model's flags of BIT are the spec's, which speaks of the bytes as numbers (42_logic_shift_bit.md R217). -/
theorem Flags.bit_eq (p : Flags) (a m : Byte) :
    p.bit a m = { p with z := decide ((a &&& m).toNat = 0), n := decide (128 ≤ m.toNat),
                         v := decide (64 ≤ m.toNat % 128) } := by
  have hz : a &&& m = 0 ↔ (a &&& m).toNat = 0 := BitVec.toNat_eq
  simp only [Flags.bit, bit7_iff, bit6_iff, hz]

theorem andA_eq (m : Byte) (s : State) : andA m s = { s with cpu := Spec.toA (s.cpu.a &&& m) s.cpu } :=
  loadA_eq (s.cpu.a &&& m) s

theorem oraA_eq (m : Byte) (s : State) : oraA m s = { s with cpu := Spec.toA (s.cpu.a ||| m) s.cpu } :=
  loadA_eq (s.cpu.a ||| m) s

theorem eorA_eq (m : Byte) (s : State) : eorA m s = { s with cpu := Spec.toA (s.cpu.a ^^^ m) s.cpu } :=
  loadA_eq (s.cpu.a ^^^ m) s

theorem bitA_eq (m : Byte) (s : State) :
    bitA m s = { s with cpu := { s.cpu with p := { s.cpu.p with
      z := decide ((s.cpu.a &&& m).toNat = 0), n := decide (128 ≤ m.toNat), v := decide (64 ≤ m.toNat % 128) } } } := by
  rw [bitA, Flags.bit_eq]
  rfl

/-- Settles O18: AND, ORA and EOR load into `A` what they make of `A` and the operand, and BIT sets its three flags;
each row runs its mnemonic's effect through the class `read`. -/
theorem logicCombinesWithA : Obligations.LogicCombinesWithA := by
  intro k op i src c s h
  refine ⟨fun _ => encode_eq_sourceBytes h, ?and, ?ora, ?eor, ?bit⟩
  case and => rintro rfl; refine exec_eq_readResult h ?_ s; exact andA_eq
  case ora => rintro rfl; refine exec_eq_readResult h ?_ s; exact oraA_eq
  case eor => rintro rfl; refine exec_eq_readResult h ?_ s; exact eorA_eq
  case bit => rintro rfl; refine exec_eq_readResult h ?_ s; exact bitA_eq

end Sys2Proof.Machine
end

section
/-! Compares, add and subtract (43_compare_incdec_arith.md R230 to R232, R239, R240, R243; 45_unofficial.md R315). -/

namespace Sys2Proof.Machine

/-! ## The compares -/

/-- The flags of a comparison with its `N` in integers (43_compare_incdec_arith.md R230). -/
theorem Flags.compare_eq (p : Flags) (r m : Byte) :
    p.compare r m = { p with c := decide (m.toNat ≤ r.toNat), z := decide (r = m),
                             n := decide (128 ≤ (r.toNat + 256 - m.toNat) % 256) } := by
  have hdiff : (r - m).toNat = (r.toNat + 256 - m.toNat) % 256 := by
    rw [BitVec.toNat_sub]
    omega
  rw [Flags.compare, bit7_iff, hdiff]

/-- Writing the flags of a comparison is the spec's comparison, which leaves every register as it is. -/
theorem setP_compare (r m : Byte) (s : State) :
    s.setP (s.cpu.p.compare r m) = { s with cpu := Spec.comparison r m s.cpu } := by
  rw [Flags.compare_eq]
  rfl

/-- Settles O19: each row runs the class `read`, whose effect writes the flags of comparing the mnemonic's register with
the operand. -/
theorem comparesSetFlags : Obligations.ComparesSetFlags := by
  intro k op i src c s h
  refine ⟨fun _ => encode_eq_sourceBytes h, ?cmp, ?cpx, ?cpy⟩
  case cmp => rintro rfl; refine exec_eq_readResult h ?_ s; exact fun m s => setP_compare s.cpu.a m s
  case cpx => rintro rfl; refine exec_eq_readResult h ?_ s; exact fun m s => setP_compare s.cpu.x m s
  case cpy => rintro rfl; refine exec_eq_readResult h ?_ s; exact fun m s => setP_compare s.cpu.y m s

/-! ## Add and subtract -/

/-- The flags of a sum: `N`, `Z` as the spec's `SetNZ` of the result, then `C` and `V` (10_state.md R28). -/
theorem Flags.setSum_eq (p : Flags) (r : Sum) :
    p.setSum r = { Spec.nz p r.result with c := r.carry, v := r.overflow } := by
  rw [Flags.setSum, Flags.setNZ_eq_nz]
  rfl

theorem addA_eq (m : Byte) (s : State) : addA m s = { s with cpu := Spec.adc m s.cpu } := by
  rw [addA, storeSum, Flags.setSum_eq, adcSum_overflow, adcSum_carry, adcSum_result]
  rfl

theorem subtractA_eq (m : Byte) (s : State) : subtractA m s = { s with cpu := Spec.sbc m s.cpu } := by
  rw [subtractA, storeSum, Flags.setSum_eq, sbcSum_overflow, sbcSum_carry, sbcSum_result]
  rfl

/-- Settles O20: each ADC row runs the class `read`, whose effect on the registers is the spec's sum. -/
theorem adcAdds : Obligations.AdcAdds := by
  intro op i src c s h
  exact ⟨encode_eq_sourceBytes h, exec_eq_readResult h addA_eq s⟩

/-- Settles O21: each SBC row, 0xEB among them, runs the class `read`, whose effect on the registers is the spec's
difference. -/
theorem sbcSubtracts : Obligations.SbcSubtracts := by
  intro op i src c s h
  exact ⟨encode_eq_sourceBytes h, exec_eq_readResult h subtractA_eq s⟩

/-- Settles O22: the two immediate forms leave in `A` the results of their sums, so `A` comes back by `sbcSum_adcSum`;
`V` after ADC is the overflow of its sum. -/
theorem adcSbcRoundTrip : Obligations.AdcSbcRoundTrip := by
  intro b s
  refine ⟨(addA b s).charge 2, _, rfl, rfl, ?accumulator, ?overflow⟩
  case accumulator => exact sbcSum_adcSum s.cpu.a b s.cpu.p.c
  case overflow =>
    have hv := adcSum_overflow s.cpu.a b s.cpu.p.c
    exact (Bool.eq_iff_iff.mp hv).trans decide_eq_true_iff

end Sys2Proof.Machine
end

section
/-! The stack pushes, the jumps, the flag instructions and the NOPs (44_stack_control_flags.md R260, R262, R264, R265,
R278 to R284, R286; 45_unofficial.md R309 to R314). -/

namespace Sys2Proof.Machine

/-! ## The bytes after a store to RAM -/

/-- A cell of RAM read without the bus (20_memory.md R84). -/
theorem peek_below_ports {a : Addr} (h : a.toNat < 0x2000) (s : State) :
    peek s a = some (Memory.get s.ram (a.toNat % 0x800)) := by
  rw [peek, route_ram h]

/-- Outside RAM, the byte read without the bus depends on the cartridge only. -/
theorem peek_eq_of_cart_eq {a : Addr} {s t : State} (h : 0x2000 ≤ a.toNat) (hcart : t.cart = s.cart) :
    peek t a = peek s a := by
  have hram : ∀ i, route s.cart a ≠ .ram i := by
    intro i
    simp only [route, show ¬ a.toNat < 0x2000 by omega, if_false]
    (repeat' split) <;> simp
  unfold peek
  rw [hcart]
  cases hr : route s.cart a with
  | ram i => exact absurd hr (hram i)
  | _ => rfl

/-- Setting the cell of a RAM address is a store there: all mirrors of the address read the byte, no other address reads
another byte than before. -/
theorem bytesAfterStore_of_ram_eq_set {a : Addr} {v : Byte} {s t : State} (hwf : Memory.wf 2048 s.ram = true)
    (ha : a.toNat < 0x2000) (hram : t.ram = Memory.set s.ram (a.toNat % 0x800) v) (hcart : t.cart = s.cart) :
    Spec.BytesAfterStore a v s t := by
  intro b
  by_cases hb : b.toNat < 0x2000
  · rw [peek_below_ports hb, peek_below_ports hb, hram, Memory.get_set hwf]
    have hcell : Spec.SameCell a b ↔ b.toNat % 0x800 = a.toNat % 0x800 := by
      simp only [Spec.SameCell, ha, hb, true_and, eq_comm]
    rw [hcell]
    exact ⟨fun h => by rw [if_pos h], fun h => by rw [if_neg h]⟩
  · have hcell : ¬ Spec.SameCell a b := fun ⟨_, hlt, _⟩ => hb hlt
    exact ⟨fun h => absurd h hcell, fun _ => peek_eq_of_cart_eq (Nat.le_of_not_lt hb) hcart⟩

/-! ## Push and pull -/

theorem toNat_spec_stack (p : Byte) : (Spec.stack p).toNat = 256 + p.toNat := by
  have hp := p.isLt
  rw [Spec.stack, BitVec.toNat_ofNat]
  omega

/-- A state whose RAM is that of a push has the pushed byte at 0x0100 + S, and every other byte as before
(10_state.md R23, R24). -/
theorem bytesAfterStore_of_ram_eq_push {v : Byte} {s t : State} (hwf : Memory.wf 2048 s.ram = true)
    (hram : t.ram = (push v s).ram) (hcart : t.cart = s.cart) :
    Spec.BytesAfterStore (Spec.stack s.cpu.s) v s t := by
  have hs := s.cpu.s.isLt
  refine bytesAfterStore_of_ram_eq_set hwf (by rw [toNat_spec_stack]; omega) ?_ hcart
  rw [hram, push_eq, toNat_spec_stack, Nat.mod_eq_of_lt (by omega)]

/-- A pull from the RAM and the stack pointer a push left gives the pushed byte, and the stack pointer back. -/
theorem pull_of_push {v : Byte} {s t : State} (hwf : Memory.wf 2048 s.ram = true)
    (hram : t.ram = (push v s).ram) (hs : t.cpu.s = (push v s).cpu.s) : pull t = (v, t.setS s.cpu.s) := by
  rw [push_eq] at hram hs
  have hback : t.cpu.s + 1 = s.cpu.s := by rw [hs]; exact BitVec.sub_add_cancel s.cpu.s 1
  rw [pull_eq, hback, hram, Memory.get_set hwf, if_pos rfl]

/-- PLA after a push loads the pushed byte and gives the stack pointer back. -/
theorem pullA_of_push {v : Byte} {s t : State} (hwf : Memory.wf 2048 s.ram = true)
    (hram : t.ram = (push v s).ram) (hs : t.cpu.s = (push v s).cpu.s) :
    (pullA t).cpu.a = v ∧ (pullA t).cpu.s = s.cpu.s := by
  rw [pullA, pull_of_push hwf hram hs]
  exact ⟨rfl, rfl⟩

/-- The status byte PHP pushes, as the spec's sum of bits (10_state.md R26). -/
theorem Flags.pack_eq_statusByte (p : Flags) (b4 : Bool) : p.pack b4 = Spec.statusByte p b4 := by
  simp only [Flags.pack, Spec.statusByte, Nat.mul_comm]

/-- An implied instruction of 3 cycles that pushes `v` stores it at 0x0100 + S and moves `S` down; nothing else
changes. -/
theorem push_charge_after (v : Byte) {s : State} (hwf : Memory.wf 2048 s.ram = true) :
    Spec.BytesAfterStore (Spec.stack s.cpu.s) v s ((push v s).charge 3) ∧
    (push v s).charge 3 =
      { s with ram := ((push v s).charge 3).ram, cpu := { s.cpu with s := s.cpu.s - 1 }, cycles := 3 } := by
  have hcart : (push v s).cart = s.cart := by rw [push_eq]
  refine ⟨bytesAfterStore_of_ram_eq_push hwf rfl hcart, ?_⟩
  rw [push_eq]
  rfl

/-- Settles O30: PHA and PHP are one push each, and the pull of PLA reads the cell the push wrote. -/
theorem pushesPush : Obligations.PushesPush := by
  refine ⟨rfl, rfl, fun s hwf => ⟨?pha, ?php, ?phaPla⟩⟩
  case pha => exact ⟨_, rfl, push_charge_after s.cpu.a hwf⟩
  case php =>
    rw [← Flags.pack_eq_statusByte]
    exact ⟨_, rfl, push_charge_after (s.cpu.p.pack true) hwf⟩
  case phaPla => exact fun v => ⟨_, _, rfl, rfl, pullA_of_push hwf rfl rfl⟩

/-! ## Jumps -/

/-- The second byte of a pointer that wraps inside its page, in integers (20_memory.md R97). -/
theorem word_hi8_lo8_succ (w : Addr) :
    word (hi8 w) (lo8 w + 1) = BitVec.ofNat 16 (w.toNat / 256 * 256 + (w.toNat % 256 + 1) % 256) := by
  have hw := w.isLt
  have hlo : (lo8 w + 1).toNat = (w.toNat % 256 + 1) % 256 := by
    rw [BitVec.toNat_add, toNat_lo8]
    rfl
  apply BitVec.eq_of_toNat_eq
  rw [toNat_word, toNat_hi8, hlo, BitVec.toNat_ofNat]
  omega

/-- Settles O32: JMP sets the program counter; the indirect form reads its pointer inside one page, and neither read
changes a register. -/
theorem jumpsJump : Obligations.JumpsJump := by
  refine ⟨fun w => ⟨rfl, rfl⟩, fun w s => rfl, ?indirect⟩
  case indirect =>
    intro w s l h
    have hcpu : h.2.cpu = s.cpu := by rw [memRead_cpu, memRead_cpu]
    have hread : read16Bug w s = (word h.1 l.1, h.2) := by rw [read16Bug, word_hi8_lo8_succ]
    change Host.Outcome.next ((jumpIndirect w s).charge 5) = _
    rw [jumpIndirect, hread, ← hcpu]
    rfl

/-! ## Flag instructions -/

/-- An implied instruction that rewrites the flags by `f` leaves all else but the cycle count. -/
theorem impliedClass_setP (f : Flags → Flags) (n : Nat) (s : State) :
    impliedClass (fun s => s.setP (f s.cpu.p)) n s =
      .next { s with cpu := { s.cpu with p := f s.cpu.p }, cycles := n } := rfl

/-- Settles O36: each of the seven instructions rewrites the flags by the update of its one flag. -/
theorem flagInstructionsWriteOneFlag : Obligations.FlagInstructionsWriteOneFlag := by
  refine ⟨⟨rfl, rfl, rfl, rfl, rfl, rfl, rfl⟩, fun s => ⟨?clc, ?sec, ?cli, ?sei, ?clv, ?cld, ?sed⟩⟩
  case clc => exact impliedClass_setP (fun p => { p with c := false }) 2 s
  case sec => exact impliedClass_setP (fun p => { p with c := true }) 2 s
  case cli => exact impliedClass_setP (fun p => { p with i := false }) 2 s
  case sei => exact impliedClass_setP (fun p => { p with i := true }) 2 s
  case clv => exact impliedClass_setP (fun p => { p with v := false }) 2 s
  case cld => exact impliedClass_setP (fun p => { p with d := false }) 2 s
  case sed => exact impliedClass_setP (fun p => { p with d := true }) 2 s

/-! ## NOPs -/

/-- Indexing crosses a page exactly when the low byte and the index carry (40_addressing.md R163). -/
theorem indexed_crossed (base : Addr) (i : Byte) :
    (indexed base i).crossed = decide (255 < base.toNat % 256 + i.toNat) := by
  have hbase := base.isLt
  have hi := i.isLt
  have hsum : (base + i.setWidth 16).toNat = (base.toNat + i.toNat) % 65536 := by
    rw [BitVec.toNat_add, BitVec.toNat_setWidth, Nat.mod_eq_of_lt (a := i.toNat) (by omega)]
  simp only [indexed, pageCrossed, decide_eq_decide, ne_eq, BitVec.toNat_eq, toNat_hi8, hsum]
  omega

/-- The absoluteX NOP of the cycle column `4+p` only takes its time (45_unofficial.md R314). -/
theorem nopIndexed_eq (w : Addr) (s : State) :
    nopIndexed w (.plusP 4) s =
      .next { s with cycles := if 255 < w.toNat % 256 + s.cpu.x.toNat then 5 else 4 } := by
  rw [nopIndexed, Cost.total_plusP, indexed_crossed]
  simp only [decide_eq_true_eq]
  rfl

/-- Every row that does not index is encoded by its opcode byte and operand bytes. -/
theorem encode_nopRow {op : Byte} {operands : List Byte} {i : Instr} {n : Nat} (h : Spec.NopRow op operands i n) :
    encode i = op :: operands := by
  cases h <;> rfl

/-- Every row that does not index runs the identity through the class of the implied instructions: no access at all. -/
theorem exec_nopRow {op : Byte} {operands : List Byte} {i : Instr} {n : Nat} (h : Spec.NopRow op operands i n)
    (s : State) : exec i s = impliedClass id n s := by
  cases h <;> rfl

/-- Every absoluteX row is encoded by its opcode byte and its base address, low byte first. -/
theorem encode_nopIndexedRow {op : Byte} {w : Addr} {i : Instr} (h : Spec.NopIndexedRow op w i) :
    encode i = [op, lo8 w, hi8 w] := by
  cases h <;> rfl

/-- Every absoluteX row runs the NOP that only looks at the page its index reaches. -/
theorem exec_nopIndexedRow {op : Byte} {w : Addr} {i : Instr} (h : Spec.NopIndexedRow op w i) (s : State) :
    exec i s = nopIndexed w (.plusP 4) s := by
  cases h <;> rfl

/-- Settles O37: a row that does not index runs the identity, an absoluteX row only asks whether its index crosses a
page. -/
theorem nopsOnlyTakeTime : Obligations.NopsOnlyTakeTime := by
  refine ⟨?plain, ?absoluteX⟩
  case plain =>
    intro op operands i n s h
    exact ⟨encode_nopRow h, exec_nopRow h s⟩
  case absoluteX =>
    intro op w i s h
    exact ⟨encode_nopIndexedRow h, (exec_nopIndexedRow h s).trans (nopIndexed_eq w s)⟩

end Sys2Proof.Machine
end

section
/-! The proofs about the ports of the picture unit (46_ppu_ports.md): a read in the window is a port read, and a
write-only port answers with the latch. -/

namespace Sys2Proof.Machine

/-- A read in the window 0x2000 to 0x3FFF is the read of the address's port (20_memory.md R85). -/
theorem memRead_port_window {a : Addr} (hlo : 0x2000 ≤ a.toNat) (hhi : a.toNat < 0x4000) (s : State) :
    memRead a s = ((portRead s.cart.mirroring (portOf a) s.ppu).1,
      { s with ppu := (portRead s.cart.mirroring (portOf a) s.ppu).2 }) :=
  memRead_of_route_port (route_port hlo hhi)

/-- At an address of a write-only port the port read returns the latch and leaves the picture unit as it was
(46_ppu_ports.md R330). -/
theorem portRead_portOf_writeOnly {a : Addr}
    (hport : a.toNat % 8 = 0 ∨ a.toNat % 8 = 1 ∨ a.toNat % 8 = 3 ∨ a.toNat % 8 = 5 ∨ a.toNat % 8 = 6)
    (mir : Mirroring) (u : Ppu) : portRead mir (portOf a) u = (u.latch, u) := by
  unfold portOf
  obtain control | mask | oamAddr | scroll | vramAddr := hport
  · rw [control]; rfl
  · rw [mask]; rfl
  · rw [oamAddr]; rfl
  · rw [scroll]; rfl
  · rw [vramAddr]; rfl

/-- Settles O45: the read is the read of a write-only port, which returns the latch and puts the picture unit back
unchanged. -/
theorem writeOnlyPortsReadTheLatch : Obligations.WriteOnlyPortsReadTheLatch := by
  intro a s hlo hhi hport
  rw [memRead_port_window hlo hhi, portRead_portOf_writeOnly hport]

end Sys2Proof.Machine
end

section
/-! One turn of the system driver (48_system_driver.md R420, R421): a machine that is not halted runs its CPU step
between `beginStep` and `endStep`. -/

namespace Sys2Proof.Machine

/-- A running machine takes its turn around the CPU step; only a completed CPU step reaches `endStep` (R420, R425). -/
theorem step_running {s : State} (h : s.cpu.halted = none) :
    step s = Result.andThen (cpuStep (beginStep s)) fun c => .next (endStep c) := by
  rw [step, h]

/-- The dots at the end of a turn, with the count of R421 written out. -/
theorem endStep_eq_runDots (c : State) :
    endStep c = runDots (3 * (c.cycles + c.dmaCycles)) { c with dmaCycles := 0 } := rfl

/-- Settles O5: the turn of a running machine, with what stands before and after its CPU step written out. -/
theorem stepIsCpuStepThenDots : Obligations.StepIsCpuStepThenDots := by
  intro s h
  simp only [step_running h, beginStep, endStep_eq_runDots]

end Sys2Proof.Machine
end

section
/-! The halted machine (60_exceptions.md R461): each entry point looks at `halted` before anything else, and only the
host's `reset` and `load_rom` clear it. -/

namespace Sys2Proof.Machine

/-- A CPU step of a halted machine does not poll: it reports the error, whatever interrupts are pending. -/
theorem cpuStep_halted {s : State} {e : DecodeError} (h : s.cpu.halted = some e) :
    cpuStep s = .fault (.decodeError e.addr e.opcode s) := by
  rw [cpuStep, h]
  rfl

/-- `run_frame` of a halted machine presents no interrupt level, runs no dot and publishes no frame. -/
theorem runFrame_halted {s : State} {e : DecodeError} (h : s.cpu.halted = some e) (levels : List Bool) :
    runFrame levels s = .fault (.decodeError e.addr e.opcode s) := by
  rw [runFrame, h]
  rfl

/-- The host's reset starts the CPU as at power-up, where it is not halted (48_system_driver.md R428). -/
@[simp] theorem hostReset_halted (init : MemInit) (s : State) : (hostReset init s).cpu.halted = none := rfl

/-- Loading a good image into a loaded session installs its cartridge and resets the machine
(48_system_driver.md R426). -/
theorem Session.loadRom_some_ok {bytes : List Byte} {cart : Cartridge} (h : parseImage bytes = .ok cart)
    (init : MemInit) (s : State) :
    Session.loadRom bytes init (some s) = (some (hostReset init { s with cart := cart }), .ok ()) := by
  rw [Session.loadRom, h]

/-- Settles O6: the three entry points answer from `halted` alone, and what `load_rom` leaves is a reset machine. -/
theorem haltedMachineReportsAgain : Obligations.HaltedMachineReportsAgain := by
  intro s e h
  refine ⟨cpuStep_halted h, step_halted h, runFrame_halted h, fun init => hostReset_halted init s, ?load⟩
  case load =>
    intro bytes init cart hparse
    exact ⟨_, Session.loadRom_some_ok hparse init s, hostReset_halted init _⟩

end Sys2Proof.Machine
end

section
/-! Decoding and encoding (30_encoding.md R130 to R138). The opcode map is checked once against the encoder, slot by
slot; both directions of the agreement follow from the three formats. -/

namespace Sys2Proof

/-! ## The opcode map against the encoder -/

/-- The slot holds what the encoder writes with the first byte `op`: whatever its operand, its instruction is
well-formed and encoded by `op` and the operand, low byte first (30_encoding.md R130, R133). -/
def Format.EncodedBy (op : Byte) : Format → Prop
  | .f1 i => i.wellFormed = true ∧ encode i = [op]
  | .f2 f => ∀ b, (f b).wellFormed = true ∧ encode (f b) = [op, b]
  | .f3 f => ∀ w, (f w).wellFormed = true ∧ encode (f w) = [op, lo8 w, hi8 w]

/-- The slots of a row hold what the encoder writes with the consecutive first bytes from `op` on. -/
def RowEncodedBy (op : Byte) : List Format → Prop
  | [] => True
  | fmt :: row => fmt.EncodedBy op ∧ RowEncodedBy (op + 1) row

/-- The same for rows of sixteen slots. -/
def MapEncodedBy (op : Byte) : List (List Format) → Prop
  | [] => True
  | row :: rows => (row.length = 16 ∧ RowEncodedBy op row) ∧ MapEncodedBy (op + 16) rows

theorem RowEncodedBy.getD {op : Byte} {row : List Format} (h : RowEncodedBy op row) {k : Nat} (hk : k < row.length)
    (d : Format) : (row.getD k d).EncodedBy (op + BitVec.ofNat 8 k) := by
  induction row generalizing op k with
  | nil => simp at hk
  | cons fmt row ih =>
    cases k with
    | zero => simpa using h.1
    | succ k =>
      have hop : op + BitVec.ofNat 8 (k + 1) = op + 1 + BitVec.ofNat 8 k := by
        rw [Nat.add_comm k 1, BitVec.ofNat_add, BitVec.add_assoc]
        rfl
      rw [hop]
      simpa using ih h.2 (by simpa using hk)

theorem MapEncodedBy.getD {op : Byte} {rows : List (List Format)} (h : MapEncodedBy op rows) {k : Nat}
    (hk : k < rows.length) :
    (rows.getD k []).length = 16 ∧ RowEncodedBy (op + BitVec.ofNat 8 (16 * k)) (rows.getD k []) := by
  induction rows generalizing op k with
  | nil => simp at hk
  | cons row rows ih =>
    cases k with
    | zero => simpa using h.1
    | succ k =>
      have hop : op + BitVec.ofNat 8 (16 * (k + 1)) = op + 16 + BitVec.ofNat 8 (16 * k) := by
        rw [Nat.mul_succ, Nat.add_comm _ 16, BitVec.ofNat_add, BitVec.add_assoc]
        rfl
      rw [hop]
      simpa using ih h.2 (by simpa using hk)

/-- The whole opcode map, checked slot by slot. -/
theorem opcodeMap_encodedBy : MapEncodedBy 0 opcodeMap := by
  simp [MapEncodedBy, RowEncodedBy, Format.EncodedBy, encode, Instr.wellFormed, unmappedOpcodes, opcodeMap,
    opcodeRow0, opcodeRow1, opcodeRow2, opcodeRow3, opcodeRow4, opcodeRow5, opcodeRow6, opcodeRow7,
    opcodeRow8, opcodeRow9, opcodeRowA, opcodeRowB, opcodeRowC, opcodeRowD, opcodeRowE, opcodeRowF]

/-- The slot of every byte holds what the encoder writes with that byte. -/
theorem formatOf_encodedBy (op : Byte) : (formatOf op).EncodedBy op := by
  have hop := op.isLt
  obtain ⟨hlen, hrow⟩ := opcodeMap_encodedBy.getD (k := op.toNat / 16) (by simp [opcodeMap]; omega)
  have hslot := hrow.getD (k := op.toNat % 16) (by omega) (.f1 (.unmapped op))
  have hsum : (0 : Byte) + BitVec.ofNat 8 (16 * (op.toNat / 16)) + BitVec.ofNat 8 (op.toNat % 16) = op := by
    apply BitVec.eq_of_toNat_eq
    simp only [BitVec.ofNat_eq_ofNat, BitVec.zero_add, BitVec.toNat_add, BitVec.toNat_ofNat]
    omega
  rwa [hsum] at hslot

/-! ## The decoder, one equation per format -/

theorem decode_f1 {op : Byte} {i : Instr} (h : formatOf op = .f1 i) (rest : List Byte) :
    decode ([op] ++ rest) = .ok (i, rest) := by
  simp [decode, h]

theorem decode_f2 {op : Byte} {f : Byte → Instr} (h : formatOf op = .f2 f) (b : Byte) (rest : List Byte) :
    decode ([op, b] ++ rest) = .ok (f b, rest) := by
  simp [decode, h]

theorem decode_f3 {op : Byte} {f : Addr → Instr} (h : formatOf op = .f3 f) (w : Addr) (rest : List Byte) :
    decode ([op, lo8 w, hi8 w] ++ rest) = .ok (f w, rest) := by
  simp [decode, h]

/-- The slot of an unmapped byte is the unmapped instruction that carries it (30_encoding.md R138). -/
theorem formatOf_unmapped {op : Byte} (h : op ∈ unmappedOpcodes) : formatOf op = .f1 (.unmapped op) := by
  simp only [unmappedOpcodes, List.mem_cons, List.not_mem_nil, or_false] at h
  rcases h with rfl | rfl | rfl | rfl | rfl | rfl | rfl | rfl | rfl | rfl | rfl | rfl | rfl | rfl | rfl | rfl | rfl |
    rfl | rfl | rfl | rfl | rfl | rfl | rfl | rfl <;> rfl

/-- What the decoder reads was encoded by the bytes it consumed: the operand bytes of each format make the word they
are the low and the high byte of. -/
theorem encode_of_decode {bytes rest : List Byte} {i : Instr} (h : decode bytes = .ok (i, rest)) :
    i.wellFormed = true ∧ bytes = encode i ++ rest := by
  cases bytes with
  | nil => cases h
  | cons op tail =>
    have henc := formatOf_encodedBy op
    rw [decode] at h
    cases hf : formatOf op with
    | f1 j =>
      simp only [hf, Format.EncodedBy] at h henc
      cases h
      exact ⟨henc.1, by rw [henc.2]; rfl⟩
    | f2 f =>
      simp only [hf, Format.EncodedBy] at h henc
      rcases tail with _ | ⟨b, tail⟩
      · cases h
      · cases h
        exact ⟨(henc b).1, by rw [(henc b).2]; rfl⟩
    | f3 f =>
      simp only [hf, Format.EncodedBy] at h henc
      rcases tail with _ | ⟨b1, _ | ⟨b2, tail⟩⟩
      · cases h
      · cases h
      · cases h
        exact ⟨(henc _).1, by rw [(henc _).2, lo8_word, hi8_word]; rfl⟩

/-- The decoder gives an encoded well-formed instruction back: by its format, an implied one, one with a 16-bit operand,
or one with an operand byte. -/
theorem decode_encode {i : Instr} (hi : i.wellFormed = true) (rest : List Byte) :
    decode (encode i ++ rest) = .ok (i, rest) := by
  cases i
  case unmapped op =>
    have hop : op ∈ unmappedOpcodes := by simpa [Instr.wellFormed] using hi
    exact decode_f1 (formatOf_unmapped hop) rest
  case brk | php | aslAccumulator | clc | nop1A | plp | rolAccumulator | sec | nop3A | rti | pha | lsrAccumulator |
      cli | nop5A | rts | pla | rorAccumulator | sei | nop7A | dey | txa | tya | txs | tay | tax | clv | tsx | iny |
      dex | cld | nopDA | inx | nop | sed | nopFA =>
    exact decode_f1 rfl rest
  case nop0C w | oraAbsolute w | aslAbsolute w | sloAbsolute w | oraAbsoluteY w | sloAbsoluteY w | nop1C w |
      oraAbsoluteX w | aslAbsoluteX w | sloAbsoluteX w | jsr w | bitAbsolute w | andAbsolute w | rolAbsolute w |
      rlaAbsolute w | andAbsoluteY w | rlaAbsoluteY w | nop3C w | andAbsoluteX w | rolAbsoluteX w | rlaAbsoluteX w |
      jmpAbsolute w | eorAbsolute w | lsrAbsolute w | sreAbsolute w | eorAbsoluteY w | sreAbsoluteY w | nop5C w |
      eorAbsoluteX w | lsrAbsoluteX w | sreAbsoluteX w | jmpIndirect w | adcAbsolute w | rorAbsolute w |
      rraAbsolute w | adcAbsoluteY w | rraAbsoluteY w | nop7C w | adcAbsoluteX w | rorAbsoluteX w | rraAbsoluteX w |
      styAbsolute w | staAbsolute w | stxAbsolute w | saxAbsolute w | staAbsoluteY w | staAbsoluteX w |
      ldyAbsolute w | ldaAbsolute w | ldxAbsolute w | laxAbsolute w | ldaAbsoluteY w | ldyAbsoluteX w |
      ldaAbsoluteX w | ldxAbsoluteY w | laxAbsoluteY w | cpyAbsolute w | cmpAbsolute w | decAbsolute w |
      dcpAbsolute w | cmpAbsoluteY w | dcpAbsoluteY w | nopDC w | cmpAbsoluteX w | decAbsoluteX w | dcpAbsoluteX w |
      cpxAbsolute w | sbcAbsolute w | incAbsolute w | iscAbsolute w | sbcAbsoluteY w | iscAbsoluteY w | nopFC w |
      sbcAbsoluteX w | incAbsoluteX w | iscAbsoluteX w =>
    exact decode_f3 rfl w rest
  all_goals exact decode_f2 rfl _ rest

/-- Settles O1: `decode_encode` is the one direction, `encode_of_decode` the other. -/
theorem decodeAndEncodeAgree : Obligations.DecodeAndEncodeAgree :=
  ⟨fun _ rest hi => decode_encode hi rest, fun _ _ _ h => encode_of_decode h⟩

/-- Settles O2: each word is the encoding of its instruction. -/
theorem exampleWordsDecode : Obligations.ExampleWordsDecode := by
  refine ⟨rfl, rfl, rfl, rfl, rfl, rfl, rfl, rfl, rfl, rfl, rfl, rfl, rfl, rfl⟩

end Sys2Proof
end

section
/-! The instructions by row (30_encoding.md R136): every instruction stands in exactly one kind of row, and each kind is
run by one class. With them a proof about all instructions is one case for each kind. -/

namespace Sys2Proof.Machine

open Spec (Mnemonic ReadRow WriteRow ModifyRow NopRow NopIndexedRow BranchRow)

/-! ## The kinds of rows -/

/-- A shift or rotation of the accumulator (40_addressing.md R165). -/
def onAccumulator (f : Byte → State → Byte × State) (s : State) : State := (f s.cpu.a s).2.setA (f s.cpu.a s).1

/-- The rows of the instructions that have no data operand and are no NOP: mnemonic, opcode byte, instruction, what it
does, cycles (41_load_store_transfer.md to 44_stack_control_flags.md, the `Encodings` lines). -/
inductive ImpliedRow : Mnemonic → Byte → Instr → (State → State) → Nat → Prop where
  | aslAccumulator : ImpliedRow .asl 0x0A .aslAccumulator (onAccumulator shiftLeft) 2
  | lsrAccumulator : ImpliedRow .lsr 0x4A .lsrAccumulator (onAccumulator shiftRight) 2
  | rolAccumulator : ImpliedRow .rol 0x2A .rolAccumulator (onAccumulator rotateLeft) 2
  | rorAccumulator : ImpliedRow .ror 0x6A .rorAccumulator (onAccumulator rotateRight) 2
  | tax : ImpliedRow .tax 0xAA .tax transferAX 2
  | tay : ImpliedRow .tay 0xA8 .tay transferAY 2
  | txa : ImpliedRow .txa 0x8A .txa transferXA 2
  | tya : ImpliedRow .tya 0x98 .tya transferYA 2
  | tsx : ImpliedRow .tsx 0xBA .tsx transferSX 2
  | txs : ImpliedRow .txs 0x9A .txs transferXS 2
  | inx : ImpliedRow .inx 0xE8 .inx (stepX 1) 2
  | iny : ImpliedRow .iny 0xC8 .iny (stepY 1) 2
  | dex : ImpliedRow .dex 0xCA .dex (stepX (-1)) 2
  | dey : ImpliedRow .dey 0x88 .dey (stepY (-1)) 2
  | pha : ImpliedRow .pha 0x48 .pha pushA 3
  | pla : ImpliedRow .pla 0x68 .pla pullA 4
  | php : ImpliedRow .php 0x08 .php pushP 3
  | plp : ImpliedRow .plp 0x28 .plp pullP 4
  | jmpAbsolute (w : Addr) : ImpliedRow .jmp 0x4C (.jmpAbsolute w) (fun s => s.setPc w) 3
  | jmpIndirect (w : Addr) : ImpliedRow .jmp 0x6C (.jmpIndirect w) (jumpIndirect w) 5
  | jsr (w : Addr) : ImpliedRow .jsr 0x20 (.jsr w) (callSub w) 6
  | rts : ImpliedRow .rts 0x60 .rts returnSub 6
  | rti : ImpliedRow .rti 0x40 .rti leave 6
  | clc : ImpliedRow .clc 0x18 .clc (fun s => s.setP { s.cpu.p with c := false }) 2
  | sec : ImpliedRow .sec 0x38 .sec (fun s => s.setP { s.cpu.p with c := true }) 2
  | cli : ImpliedRow .cli 0x58 .cli (fun s => s.setP { s.cpu.p with i := false }) 2
  | sei : ImpliedRow .sei 0x78 .sei (fun s => s.setP { s.cpu.p with i := true }) 2
  | clv : ImpliedRow .clv 0xB8 .clv (fun s => s.setP { s.cpu.p with v := false }) 2
  | cld : ImpliedRow .cld 0xD8 .cld (fun s => s.setP { s.cpu.p with d := false }) 2
  | sed : ImpliedRow .sed 0xF8 .sed (fun s => s.setP { s.cpu.p with d := true }) 2
  | brk : ImpliedRow .brk 0x00 .brk softwareInterrupt 7

/-- The row of an instruction, of one of the kinds. -/
inductive InstrRow (i : Instr) : Prop where
  | read {k op src c} (h : ReadRow k op i src c) : InstrRow i
  | write {k op m n} (h : WriteRow k op i m n) : InstrRow i
  | modify {k op m n} (h : ModifyRow k op i m n) : InstrRow i
  | nop {op operands n} (h : NopRow op operands i n) : InstrRow i
  | nopIndexed {op w} (h : NopIndexedRow op w i) : InstrRow i
  | branch {k op d} (h : BranchRow k op d i) : InstrRow i
  | implied {k op f n} (h : ImpliedRow k op i f n) : InstrRow i
  | unmapped (op : Byte) (h : i = .unmapped op) : InstrRow i

/-- Every instruction has a row. -/
theorem instrRow (i : Instr) : InstrRow i := by
  cases i
  case unmapped op => exact .unmapped op rfl
  case staIndexIndirect | staZeropage | staAbsolute | staIndirectIndex | staZeropageX | staAbsoluteY | staAbsoluteX |
      stxZeropage | stxAbsolute | stxZeropageY | styZeropage | styAbsolute | styZeropageX | saxIndexIndirect |
      saxZeropage | saxAbsolute | saxZeropageY =>
    exact .write (by constructor)
  case aslZeropage | aslAbsolute | aslZeropageX | aslAbsoluteX | lsrZeropage | lsrAbsolute | lsrZeropageX |
      lsrAbsoluteX | rolZeropage | rolAbsolute | rolZeropageX | rolAbsoluteX | rorZeropage | rorAbsolute |
      rorZeropageX | rorAbsoluteX | incZeropage | incAbsolute | incZeropageX | incAbsoluteX | decZeropage |
      decAbsolute | decZeropageX | decAbsoluteX | sloIndexIndirect | sloZeropage | sloAbsolute | sloIndirectIndex |
      sloZeropageX | sloAbsoluteY | sloAbsoluteX | rlaIndexIndirect | rlaZeropage | rlaAbsolute | rlaIndirectIndex |
      rlaZeropageX | rlaAbsoluteY | rlaAbsoluteX | sreIndexIndirect | sreZeropage | sreAbsolute | sreIndirectIndex |
      sreZeropageX | sreAbsoluteY | sreAbsoluteX | rraIndexIndirect | rraZeropage | rraAbsolute | rraIndirectIndex |
      rraZeropageX | rraAbsoluteY | rraAbsoluteX | dcpIndexIndirect | dcpZeropage | dcpAbsolute | dcpIndirectIndex |
      dcpZeropageX | dcpAbsoluteY | dcpAbsoluteX | iscIndexIndirect | iscZeropage | iscAbsolute | iscIndirectIndex |
      iscZeropageX | iscAbsoluteY | iscAbsoluteX =>
    exact .modify (by constructor)
  case nop | nop1A | nop3A | nop5A | nop7A | nopDA | nopFA | nop80 | nop82 | nop89 | nopC2 | nopE2 | nop04 | nop44 |
      nop64 | nop14 | nop34 | nop54 | nop74 | nopD4 | nopF4 | nop0C =>
    exact .nop (by constructor)
  case nop1C | nop3C | nop5C | nop7C | nopDC | nopFC =>
    exact .nopIndexed (by constructor)
  case bpl | bmi | bvc | bvs | bcc | bcs | bne | beq =>
    exact .branch (by constructor)
  case aslAccumulator | lsrAccumulator | rolAccumulator | rorAccumulator | tax | tay | txa | tya | tsx | txs | inx |
      iny | dex | dey | pha | pla | php | plp | jmpAbsolute | jmpIndirect | jsr | rts | rti | clc | sec | cli | sei |
      clv | cld | sed | brk =>
    exact .implied (by constructor)
  all_goals exact .read (by constructor)

/-! ## The mnemonic, the bytes and the cost of a row -/

section
variable {k : Mnemonic} {op d : Byte} {operands : List Byte} {i : Instr} {src : Source} {c : Cost} {m : AddrMode}
  {n : Nat} {w : Addr} {f : State → State}

theorem mnemonic_readRow (h : ReadRow k op i src c) : Spec.mnemonic i = some k := by cases h <;> rfl
theorem mnemonic_writeRow (h : WriteRow k op i m n) : Spec.mnemonic i = some k := by cases h <;> rfl
theorem mnemonic_modifyRow (h : ModifyRow k op i m n) : Spec.mnemonic i = some k := by cases h <;> rfl
theorem mnemonic_nopRow (h : NopRow op operands i n) : Spec.mnemonic i = some .nop := by cases h <;> rfl
theorem mnemonic_nopIndexedRow (h : NopIndexedRow op w i) : Spec.mnemonic i = some .nop := by cases h <;> rfl
theorem mnemonic_branchRow (h : BranchRow k op d i) : Spec.mnemonic i = some k := by cases h <;> rfl
theorem mnemonic_impliedRow (h : ImpliedRow k op i f n) : Spec.mnemonic i = some k := by cases h <;> rfl

theorem encode_writeRow (h : WriteRow k op i m n) : encode i = op :: Spec.modeBytes m := by cases h <;> rfl
theorem encode_modifyRow (h : ModifyRow k op i m n) : encode i = op :: Spec.modeBytes m := by cases h <;> rfl
theorem encode_branchRow (h : BranchRow k op d i) : encode i = [op, d] := by cases h <;> rfl
theorem encode_impliedRow (h : ImpliedRow k op i f n) : ∃ operands, encode i = op :: operands := by
  cases h <;> exact ⟨_, rfl⟩

/-- The cycle column as base cost and possible penalty (30_encoding.md R143). -/
def Cost.column : Cost → Nat × Nat
  | .fixed n => (n, 0)
  | .plusP n => (n, 1)

theorem cost_readRow (h : ReadRow k op i src c) : Spec.cost op = some c.column := by cases h <;> rfl
theorem cost_writeRow (h : WriteRow k op i m n) : Spec.cost op = some (n, 0) := by cases h <;> rfl
theorem cost_modifyRow (h : ModifyRow k op i m n) : Spec.cost op = some (n, 0) := by cases h <;> rfl
theorem cost_nopRow (h : NopRow op operands i n) : Spec.cost op = some (n, 0) := by cases h <;> rfl
theorem cost_nopIndexedRow (h : NopIndexedRow op w i) : Spec.cost op = some (4, 1) := by cases h <;> rfl
theorem cost_branchRow (h : BranchRow k op d i) : Spec.cost op = some (2, 2) := by cases h <;> rfl
theorem cost_impliedRow (h : ImpliedRow k op i f n) : Spec.cost op = some (n, 0) := by cases h <;> rfl

/-! ## The class that runs a row -/

/-- The byte each storing mnemonic writes (41_load_store_transfer.md R183 to R185, 45_unofficial.md R305). -/
def storedByte : Mnemonic → State → Byte
  | .sta => regA
  | .stx => regX
  | .sty => regY
  | .sax => regAX
  | _ => fun _ => 0

/-- What each modifying mnemonic makes of the byte it reads (42_logic_shift_bit.md R213 to R216,
43_compare_incdec_arith.md R233, R234, 45_unofficial.md R300). -/
def modifyFirst : Mnemonic → Byte → State → Byte × State
  | .asl | .slo => shiftLeft
  | .lsr | .sre => shiftRight
  | .rol | .rla => rotateLeft
  | .ror | .rra => rotateRight
  | .inc | .isc => increment
  | .dec | .dcp => decrement
  | _ => fun m s => (m, s)

/-- What each modifying mnemonic then does with the byte it wrote (45_unofficial.md R301 to R304, R307, R308). -/
def modifySecond : Mnemonic → Byte → State → State
  | .slo => oraA
  | .rla => andA
  | .sre => eorA
  | .rra => addA
  | .dcp => compareA
  | .isc => subtractA
  | _ => keep

theorem exec_writeRow (h : WriteRow k op i m n) (s : State) : exec i s = writeClass (storedByte k) m n s := by
  cases h <;> rfl
theorem exec_modifyRow (h : ModifyRow k op i m n) (s : State) :
    exec i s = rmwClass (modifyFirst k) (modifySecond k) m n s := by
  cases h <;> rfl
theorem exec_branchRow (h : BranchRow k op d i) (s : State) : exec i s = branchClass (Spec.condition k) d s := by
  cases h <;> rfl
theorem exec_impliedRow (h : ImpliedRow k op i f n) (s : State) : exec i s = .next ((f s).charge n) := by
  cases h <;> rfl

end

end Sys2Proof.Machine
end

section
/-! What every step keeps (10_state.md sections 2, 3, 5 and 6): each statement gives one relation that every basic
operation keeps, and the laws `Kept` and `StepKept` carry it over instructions and steps. -/

namespace Sys2Proof.Machine

/-! ## Faults -/

/-- A write completes or is refused; it raises no fault. -/
theorem memWrite_ne_fault (a : Addr) (v : Byte) (s : State) (e : Fault) : memWrite a v s ≠ .fault e := by
  unfold memWrite oamDma
  (repeat' split) <;> nofun

/-- A write with a completing continuation raises no fault. -/
theorem memWrite_andThen_ne_fault (a : Addr) (v : Byte) (s : State) (f : State → State) (e : Fault) :
    Result.andThen (memWrite a v s) (fun t => .next (f t)) ≠ .fault e := by
  have h := memWrite_ne_fault a v s
  cases hw : memWrite a v s with
  | next t => nofun
  | fault e' => exact absurd hw (h e')
  | refused r => nofun

/-- Only an unmapped instruction raises a fault (60_exceptions.md R460). -/
theorem exec_eq_fault {i : Instr} {s : State} {e : Fault} (h : exec i s = .fault e) : ∃ op, i = .unmapped op := by
  cases instrRow i with
  | read hr => rw [exec_eq_readClass hr] at h; cases h
  | write hr =>
    rw [exec_writeRow hr, writeClass_eq] at h
    exact absurd h (memWrite_andThen_ne_fault _ _ _ _ e)
  | modify hr =>
    rw [exec_modifyRow hr, rmwClass_eq] at h
    exact absurd h (memWrite_andThen_ne_fault _ _ _ _ e)
  | nop hr => rw [exec_nopRow hr] at h; cases h
  | nopIndexed hr => rw [exec_nopIndexedRow hr] at h; cases h
  | branch hr =>
    rw [exec_branchRow hr] at h
    unfold branchClass at h
    split at h <;> cases h
  | implied hr => rw [exec_impliedRow hr] at h; cases h
  | unmapped op hi => exact ⟨op, hi⟩

/-- The state a decode error reports: the halted machine itself, or the state after the fetch with the error recorded
(60_exceptions.md R460, R461). -/
theorem step_eq_fault {s t : State} {a : Addr} {op : Byte} (h : step s = .fault (.decodeError a op t)) :
    t = s ∨ ∃ e, t = { (fetchInstr (beginStep s)).2 with
      cpu := { (fetchInstr (beginStep s)).2.cpu with halted := some e } } := by
  cases hh : s.cpu.halted with
  | some e =>
    rw [step_halted hh] at h
    cases h
    exact .inl rfl
  | none =>
    have hb : (beginStep s).cpu.halted = none := (runDots_halted s.dotDebt s).trans hh
    rw [step_running hh, cpuStep, hb] at h
    dsimp only at h
    cases hp : poll (beginStep s) with
    | nmi => rw [hp] at h; cases h
    | irq => rw [hp] at h; cases h
    | instruction =>
      rw [hp] at h
      dsimp only at h
      cases hx : exec (fetchInstr (beginStep s)).1 (fetchInstr (beginStep s)).2 with
      | next u => rw [hx] at h; cases h
      | refused r => rw [hx] at h; cases h
      | fault f =>
        obtain ⟨op', hi⟩ := exec_eq_fault hx
        rw [hi] at h
        cases h
        exact .inr ⟨_, rfl⟩

/-! ## The canonical form -/

/-- Every part of a step keeps the invariant. -/
theorem stepKept_wf : StepKept fun s t => s.wf = true → t.wf = true where
  refl _ := id
  trans h h' := h' ∘ h
  regs _ _ _ _ := id
  charge _ _ := id
  read _ a h := memRead_wf h a
  store _ a v h := busStore_wf h a v
  dma _ _ _ ht h := oamDma_wf h ht
  dot s h := by
    rw [State.wf_iff] at h ⊢
    rw [dotStep_ppu]
    exact ⟨h.1, h.2.1, Ppu.step_wf h.2.2⟩
  debt _ _ := id
  dmaCycles _ _ := id
  takeLatch _ := id

/-- Settles O10: `stepKept_wf` carries the invariant over a completed step, and over the fetch that a decode error
stops after. -/
theorem stepKeepsWellFormed : Obligations.StepKeepsWellFormed := by
  intro s t hs
  refine ⟨fun h => stepKept_wf.step h hs, fun a op h => ?_⟩
  rcases step_eq_fault h with rfl | ⟨e, rfl⟩
  · exact hs
  · exact stepKept_wf.fetchInstr _ (stepKept_wf.beginStep s hs)

/-- Settles O9: the memories of the reset state are empty lists. -/
theorem resetStateIsWellFormed : Obligations.ResetStateIsWellFormed := by
  unfold Obligations.ResetStateIsWellFormed
  decide

/-! ## The cartridge, the parameters and the host's side -/

/-- The parts of the machine that no step changes, and the output stream, which only grows at its front
(10_state.md sections 3 and 6; log entries 3 and 5). -/
def SameConstants (s t : State) : Prop :=
  t.cart = s.cart ∧ t.config = s.config ∧ t.irqLine = s.irqLine ∧ t.published = s.published ∧
  (∃ l, t.extWrites = l ++ s.extWrites) ∧ t.cpu.halted = s.cpu.halted

theorem SameConstants.refl (s : State) : SameConstants s s := ⟨rfl, rfl, rfl, rfl, ⟨[], rfl⟩, rfl⟩

theorem SameConstants.trans {s t u : State} (h : SameConstants s t) (h' : SameConstants t u) : SameConstants s u := by
  obtain ⟨cart, config, irq, pub, ⟨l, ext⟩, halt⟩ := h
  obtain ⟨cart', config', irq', pub', ⟨l', ext'⟩, halt'⟩ := h'
  exact ⟨cart'.trans cart, config'.trans config, irq'.trans irq, pub'.trans pub,
    ⟨l' ++ l, by rw [ext', ext, List.append_assoc]⟩, halt'.trans halt⟩

theorem memRead_sameConstants (s : State) (a : Addr) : SameConstants s (memRead a s).2 := by
  rcases memRead_state a s with h | ⟨p, h⟩ | h <;> rw [h] <;> exact .refl s

theorem busStore_sameConstants (s : State) (a : Addr) (v : Byte) : SameConstants s (busStore a v s) := by
  rcases busStore_state a v s with h | ⟨i, -, -, h⟩ | ⟨p, h⟩ | h <;> rw [h]
  · exact .refl s
  · exact .refl s
  · exact .refl s
  · exact ⟨rfl, rfl, rfl, rfl, ⟨[(a, v)], rfl⟩, rfl⟩

/-- Every part of a step keeps the constants. -/
theorem stepKept_sameConstants : StepKept SameConstants where
  refl := .refl
  trans := .trans
  regs _ _ _ hh := ⟨rfl, rfl, rfl, rfl, ⟨[], rfl⟩, hh⟩
  charge s _ := .refl s
  read := memRead_sameConstants
  store := busStore_sameConstants
  dma s t pg h := by
    obtain ⟨-, rfl⟩ := oamDma_next h
    exact ⟨rfl, rfl, rfl, rfl, ⟨[], rfl⟩, rfl⟩
  dot _ := ⟨rfl, rfl, rfl, rfl, ⟨[], rfl⟩, rfl⟩
  debt s _ := .refl s
  dmaCycles s _ := .refl s
  takeLatch s := .refl s

/-! ## The driver's debt -/

/-- No operation of an instruction changes the dots owed (48_system_driver.md R420). -/
theorem kept_dotDebt : Kept fun s t => t.dotDebt = s.dotDebt where
  refl _ := rfl
  trans h h' := h'.trans h
  regs _ _ _ _ := rfl
  charge _ _ := rfl
  read s a := (memRead_keeps a s).2.2.2.2.1
  store s a v := (busStore_keeps a v s).2.2.2.1
  dma s t pg h := by
    obtain ⟨-, rfl⟩ := oamDma_next h
    rfl

/-- A relation that the operations of an instruction and the taking of the NMI latch keep is kept by a CPU step. -/
theorem Kept.cpuStep {R : State → State → Prop} (K : Kept R)
    (hlatch : ∀ s : State, R s { s with cpu := { s.cpu with nmiPending := false } }) {s t : State}
    (h : cpuStep s = .next t) : R s t := by
  obtain ⟨-, ⟨-, rfl⟩ | ⟨-, -, -, rfl⟩ | ⟨-, -, h⟩⟩ := cpuStep_next h
  · exact K.trans (K.trans (hlatch s) (K.enter _ _ _)) (K.charge _ _)
  · exact K.takeIrq s
  · exact K.trans (K.fetchInstr s) (K.exec h)

/-- Settles O11: the constants are kept by every part of a step; the dots owed from before are paid in `beginStep` and
the DMA cycles in `endStep`, and the CPU step between them owes no new dots. -/
theorem stepKeepsConstants : Obligations.StepKeepsConstants := by
  intro s t h
  obtain ⟨cart, config, irq, pub, ext, halt⟩ := stepKept_sameConstants.step h
  obtain ⟨hrun, c, hc, rfl⟩ := step_eq_next.mp h
  have hdebt : c.dotDebt = 0 := kept_dotDebt.cpuStep (fun _ => rfl) hc
  exact ⟨cart, config, irq, pub, ext, (runDots_dotDebt _ _).trans hdebt, runDots_dmaCycles _ _, halt.trans hrun⟩

/-! ## Time -/

/-- What no instruction changes: the latches and the parts of the machine that only dots and the host write, and
`vblank` unless it is cleared. -/
def SameTime (s t : State) : Prop :=
  t.cpu.nmiPending = s.cpu.nmiPending ∧ t.cpu.halted = s.cpu.halted ∧
  t.ppu.scanline = s.ppu.scanline ∧ t.ppu.dot = s.ppu.dot ∧ t.ppu.frame = s.ppu.frame ∧
  t.ppu.sprite0Hit = s.ppu.sprite0Hit ∧ t.ppu.spriteOverflow = s.ppu.spriteOverflow ∧
  (t.ppu.vblank = true → s.ppu.vblank = true) ∧
  t.cart = s.cart ∧ t.config = s.config ∧ t.irqLine = s.irqLine ∧ t.published = s.published ∧
  t.dotDebt = s.dotDebt

theorem SameTime.refl (s : State) : SameTime s s := ⟨rfl, rfl, rfl, rfl, rfl, rfl, rfl, id, rfl, rfl, rfl, rfl, rfl⟩

theorem SameTime.trans {s t u : State} (h : SameTime s t) (h' : SameTime t u) : SameTime s u := by
  obtain ⟨nmi, halt, line, dot, frame, hit, ovf, vbl, cart, config, irq, pub, debt⟩ := h
  obtain ⟨nmi', halt', line', dot', frame', hit', ovf', vbl', cart', config', irq', pub', debt'⟩ := h'
  exact ⟨nmi'.trans nmi, halt'.trans halt, line'.trans line, dot'.trans dot, frame'.trans frame, hit'.trans hit,
    ovf'.trans ovf, vbl ∘ vbl', cart'.trans cart, config'.trans config, irq'.trans irq, pub'.trans pub,
    debt'.trans debt⟩

/-- Where no time passes the position stays. -/
theorem SameTime.position {s t : State} (h : SameTime s t) : t.ppu.position = s.ppu.position := by
  obtain ⟨-, -, line, dot, -⟩ := h
  rw [Ppu.position, line, dot, Ppu.position]

/-- A port read sets no `vblank`: the status read clears it (46_ppu_ports.md R336). -/
theorem portRead_vblank (mir : Mirroring) (p : Port) (u : Ppu) (h : (portRead mir p u).2.vblank = true) :
    u.vblank = true := by
  cases p
  case status => cases h
  case data =>
    simp only [portRead, readData, Ppu.incV] at h
    split at h <;> exact h
  all_goals exact h

theorem memRead_sameTime (s : State) (a : Addr) : SameTime s (memRead a s).2 := by
  rcases memRead_state a s with h | ⟨p, h⟩ | h <;> rw [h]
  · exact .refl s
  · have hv := portRead_vblank s.cart.mirroring p s.ppu
    obtain ⟨v, w, vb, rb, la, e⟩ := portRead_keeps s.cart.mirroring p s.ppu
    rw [e] at hv ⊢
    exact ⟨rfl, rfl, rfl, rfl, rfl, rfl, rfl, hv, rfl, rfl, rfl, rfl, rfl⟩
  · exact .refl s

theorem busStore_sameTime (s : State) (a : Addr) (v : Byte) : SameTime s (busStore a v s) := by
  rcases busStore_state a v s with h | ⟨i, -, -, h⟩ | ⟨p, h⟩ | h <;> rw [h]
  · exact .refl s
  · exact .refl s
  · obtain ⟨vbl, hit, ovf, -, line, dot, frame, -⟩ := portWrite_keeps s.cart.mirroring p v s.ppu
    exact ⟨rfl, rfl, line, dot, frame, hit, ovf, vbl.symm.trans, rfl, rfl, rfl, rfl, rfl⟩
  · exact .refl s

theorem kept_sameTime : Kept SameTime where
  refl := .refl
  trans := .trans
  regs _ _ hn hh := ⟨hn, hh, rfl, rfl, rfl, rfl, rfl, id, rfl, rfl, rfl, rfl, rfl⟩
  charge s _ := .refl s
  read := memRead_sameTime
  store := busStore_sameTime
  dma s t pg h := by
    obtain ⟨-, rfl⟩ := oamDma_next h
    exact ⟨rfl, rfl, rfl, rfl, rfl, rfl, rfl, id, rfl, rfl, rfl, rfl, rfl⟩

/-- Settles O13: every operation of an instruction keeps `SameTime`. -/
theorem instructionsLeaveTimeAlone : Obligations.InstructionsLeaveTimeAlone :=
  fun _ _ _ h => kept_sameTime.exec h

end Sys2Proof.Machine
end

section
/-! The storing and the modifying instructions (40_addressing.md R177): what their classes do in terms of
`Spec.stored`, for the families 41, 42, 43 and 45 at once. -/

namespace Sys2Proof.Machine

open Spec (Mnemonic ReadRow WriteRow ModifyRow)

/-! ## Writes -/

theorem toNat_eq_dmaTrigger {a : Addr} : a.toNat = 0x4014 ↔ a = 0x4014 :=
  ⟨fun h => BitVec.eq_of_toNat_eq h, fun h => by rw [h]; rfl⟩

/-- A write that the spec gives a meaning completes: the copy at the DMA trigger, else the store of the routing table. -/
theorem memWrite_storable {a : Addr} {v : Byte} (h : Spec.Storable a v) (s : State) :
    memWrite a v s = .next (Spec.stored a v s) := by
  unfold Spec.stored
  split
  · next ha =>
    subst ha
    have hpage : dmaUnspecified v = false := by
      simpa [Spec.Storable, dmaUnspecified] using h
    rw [memWrite_dma, oamDma, hpage]
    rfl
  · next ha => rw [memWrite_of_ne v (mt toNat_eq_dmaTrigger.mp ha)]

/-- Any other write is refused, with the page it asks a copy of (46_ppu_ports.md R352). -/
theorem memWrite_not_storable {a : Addr} {v : Byte} (h : ¬ Spec.Storable a v) (s : State) :
    memWrite a v s = .refused (.dmaSourceUnspecified v) := by
  obtain ⟨rfl, hpage⟩ : a = 0x4014 ∧ 0x20 ≤ v.toNat ∧ v.toNat ≤ 0x7F := by simpa [Spec.Storable] using h
  have hun : dmaUnspecified v = true := by simp [dmaUnspecified, hpage]
  rw [memWrite_dma, oamDma, hun]
  rfl

/-- A write does not look at the registers. -/
theorem stored_setCpu (a : Addr) (v : Byte) (s : State) (q : Cpu) :
    Spec.stored a v { s with cpu := q } = { Spec.stored a v s with cpu := q } := by
  unfold Spec.stored
  split
  · rfl
  · unfold busStore
    cases route s.cart a <;> rfl

@[simp] theorem stored_cpu (a : Addr) (v : Byte) (s : State) : (Spec.stored a v s).cpu = s.cpu := by
  unfold Spec.stored
  split
  · rfl
  · exact busStore_cpu a v s

/-! ## The classes -/

/-- An instruction of the class `write` is the spec's storing instruction. -/
theorem stores_of_writeClass {i : Instr} {f : State → Byte} {m : AddrMode} {n : Nat} {s : State}
    (h : exec i s = writeClass f m n s) : Spec.Stores i m n (f s) s := by
  rw [writeClass_eq] at h
  refine ⟨fun hw => ?_, fun hw => ?_⟩
  · rw [h, memWrite_storable hw]
    rfl
  · rw [h, memWrite_not_storable hw]
    rfl

/-- An instruction of the class `read-modify-write` whose two operations act on the registers only is the spec's
modifying instruction with the one operation after the other. -/
theorem modifies_of_rmwClass {i : Instr} {f : Byte → State → Byte × State} {g : Byte → State → State} {m : AddrMode}
    {n : Nat} {s : State} {F : Byte → Cpu → Byte × Cpu} {G : Byte → Cpu → Cpu}
    (hf : ∀ b s, f b s = ((F b s.cpu).1, { s with cpu := (F b s.cpu).2 }))
    (hg : ∀ b s, g b s = { s with cpu := G b s.cpu }) (h : exec i s = rmwClass f g m n s) :
    Spec.Modifies i m n (Spec.andThen F G) s := by
  simp only [rmwClass_eq, hf, hg, memRead_cpu] at h
  simp only [Spec.Modifies, Spec.andThen]
  refine ⟨fun hw => ?_, fun hw => ?_⟩
  · rw [h, memWrite_storable hw, stored_setCpu]
    rfl
  · rw [h, memWrite_not_storable hw]
    rfl

/-- What a storing instruction leaves when it completes. -/
theorem next_of_stores {i : Instr} {m : AddrMode} {n : Nat} {v : Byte} {s t : State} (h : Spec.Stores i m n v s)
    (ht : exec i s = .next t) : t = { Spec.stored (effAddr m s).1.addr v s with cycles := n } := by
  obtain ⟨hnext, hrefused⟩ := h
  by_cases hw : Spec.Storable (effAddr m s).1.addr v
  · exact Host.Outcome.next.inj (ht.symm.trans (hnext hw))
  · cases ht.symm.trans (hrefused hw)

/-- What a modifying instruction leaves when it completes. -/
theorem next_of_modifies {i : Instr} {m : AddrMode} {n : Nat} {f : Byte → Cpu → Byte × Cpu} {s t : State}
    (h : Spec.Modifies i m n f s) (ht : exec i s = .next t) :
    t = { Spec.stored (effAddr m s).1.addr (f (memRead (effAddr m s).1.addr s).1 s.cpu).1
            (memRead (effAddr m s).1.addr s).2 with
          cpu := (f (memRead (effAddr m s).1.addr s).1 s.cpu).2, cycles := n } := by
  obtain ⟨hnext, hrefused⟩ := h
  by_cases hw : Spec.Storable (effAddr m s).1.addr (f (memRead (effAddr m s).1.addr s).1 s.cpu).1
  · exact Host.Outcome.next.inj (ht.symm.trans (hnext hw))
  · cases ht.symm.trans (hrefused hw)

/-! ## The operations in the spec's terms -/

/-- The spec's shift of the byte `r` is the model's, which speaks of the state. -/
theorem shifted_eq {r : Shifted} {b : Byte} {out : Bool} (hr : r.result = b) (ho : r.carry = out) (s : State) :
    shifted r s = ((Spec.shift b out s.cpu).1, { s with cpu := (Spec.shift b out s.cpu).2 }) := by
  subst hr ho
  rw [shifted, Flags.setShifted, Flags.setNZ_eq_nz]
  rfl

/-- Bit 0 of a byte is its parity. -/
theorem bit0_iff (b : Byte) : b.getLsbD 0 = decide (b.toNat % 2 = 1) := by
  simp [BitVec.getLsbD, Nat.testBit_eq_decide_div_mod_eq]

theorem shiftLeft_eq (m : Byte) (s : State) :
    shiftLeft m s = ((Spec.asl m s.cpu).1, { s with cpu := (Spec.asl m s.cpu).2 }) := by
  refine shifted_eq ?_ (bit7_iff m) s
  apply BitVec.eq_of_toNat_eq
  simp only [aslByte, BitVec.toNat_shiftLeft, Nat.shiftLeft_eq, BitVec.toNat_ofNat]
  omega

theorem shiftRight_eq (m : Byte) (s : State) :
    shiftRight m s = ((Spec.lsr m s.cpu).1, { s with cpu := (Spec.lsr m s.cpu).2 }) := by
  refine shifted_eq ?_ (bit0_iff m) s
  have hm := m.isLt
  apply BitVec.eq_of_toNat_eq
  simp only [lsrByte, BitVec.toNat_ushiftRight, Nat.shiftRight_eq_div_pow, BitVec.toNat_ofNat]
  omega

theorem rotateLeft_eq (m : Byte) (s : State) :
    rotateLeft m s = ((Spec.rol m s.cpu).1, { s with cpu := (Spec.rol m s.cpu).2 }) := by
  refine shifted_eq ?_ (bit7_iff m) s
  generalize s.cpu.p.c = c
  revert m c
  decide

theorem rotateRight_eq (m : Byte) (s : State) :
    rotateRight m s = ((Spec.ror m s.cpu).1, { s with cpu := (Spec.ror m s.cpu).2 }) := by
  refine shifted_eq ?_ (bit0_iff m) s
  generalize s.cpu.p.c = c
  revert m c
  decide

theorem increment_eq (m : Byte) (s : State) :
    increment m s = ((Spec.inc m s.cpu).1, { s with cpu := (Spec.inc m s.cpu).2 }) := by
  have hsum : m + 1 = BitVec.ofNat 8 (m.toNat + 1) := by
    apply BitVec.eq_of_toNat_eq
    simp [BitVec.toNat_add]
  rw [increment, hsum, State.setNZ, Flags.setNZ_eq_nz]
  rfl

theorem decrement_eq (m : Byte) (s : State) :
    decrement m s = ((Spec.dec m s.cpu).1, { s with cpu := (Spec.dec m s.cpu).2 }) := by
  have hdiff : m - 1 = BitVec.ofNat 8 (m.toNat + 255) := by
    apply BitVec.eq_of_toNat_eq
    simp [BitVec.toNat_sub, Nat.add_comm]
  rw [decrement, hdiff, State.setNZ, Flags.setNZ_eq_nz]
  rfl

/-- The first operation of a modifying mnemonic on the byte and the registers (42_logic_shift_bit.md R213 to R216,
43_compare_incdec_arith.md R233, R234). -/
def firstEffect : Mnemonic → Byte → Cpu → Byte × Cpu
  | .asl | .slo => Spec.asl
  | .lsr | .sre => Spec.lsr
  | .rol | .rla => Spec.rol
  | .ror | .rra => Spec.ror
  | .inc | .isc => Spec.inc
  | .dec | .dcp => Spec.dec
  | _ => fun m q => (m, q)

/-- The second operation of a modifying mnemonic, on the byte it wrote (45_unofficial.md R301 to R304, R307, R308). -/
def secondEffect : Mnemonic → Byte → Cpu → Cpu
  | .slo => fun r q => Spec.toA (q.a ||| r) q
  | .rla => fun r q => Spec.toA (q.a &&& r) q
  | .sre => fun r q => Spec.toA (q.a ^^^ r) q
  | .rra => Spec.adc
  | .dcp => fun r q => Spec.comparison q.a r q
  | .isc => Spec.sbc
  | _ => fun _ q => q

theorem modifyFirst_eq (k : Mnemonic) (b : Byte) (s : State) :
    modifyFirst k b s = ((firstEffect k b s.cpu).1, { s with cpu := (firstEffect k b s.cpu).2 }) := by
  cases k
  case asl | slo => exact shiftLeft_eq b s
  case lsr | sre => exact shiftRight_eq b s
  case rol | rla => exact rotateLeft_eq b s
  case ror | rra => exact rotateRight_eq b s
  case inc | isc => exact increment_eq b s
  case dec | dcp => exact decrement_eq b s
  all_goals rfl

theorem modifySecond_eq (k : Mnemonic) (b : Byte) (s : State) :
    modifySecond k b s = { s with cpu := secondEffect k b s.cpu } := by
  cases k
  case slo => exact oraA_eq b s
  case rla => exact andA_eq b s
  case sre => exact eorA_eq b s
  case rra => exact addA_eq b s
  case dcp => exact setP_compare s.cpu.a b s
  case isc => exact subtractA_eq b s
  all_goals rfl

/-- Every modifying row is the spec's modifying instruction with the two operations of its mnemonic. -/
theorem modifies_modifyRow {k : Mnemonic} {op : Byte} {i : Instr} {m : AddrMode} {n : Nat}
    (h : ModifyRow k op i m n) (s : State) :
    Spec.Modifies i m n (Spec.andThen (firstEffect k) (secondEffect k)) s :=
  modifies_of_rmwClass (modifyFirst_eq k) (modifySecond_eq k) (exec_modifyRow h s)

/-- Every storing row is the spec's storing instruction with its mnemonic's byte. -/
theorem stores_writeRow {k : Mnemonic} {op : Byte} {i : Instr} {m : AddrMode} {n : Nat}
    (h : WriteRow k op i m n) (s : State) : Spec.Stores i m n (storedByte k s) s :=
  stores_of_writeClass (exec_writeRow h s)

/-! ## The statements of the families -/

/-- Settles O24: each row runs the class `write` with the byte of its mnemonic. -/
theorem storesStore : Obligations.StoresStore := by
  intro k op i m n s h
  refine ⟨encode_writeRow h, ?sta, ?stx, ?sty, ?sax⟩
  all_goals
    rintro rfl
    exact stores_writeRow h s

/-- A shift of the accumulator in terms of the registers. -/
theorem onAccumulator_eq {f : Byte → State → Byte × State} {F : Byte → Cpu → Byte × Cpu}
    (hf : ∀ b s, f b s = ((F b s.cpu).1, { s with cpu := (F b s.cpu).2 })) (s : State) :
    onAccumulator f s = { s with cpu := { (F s.cpu.a s.cpu).2 with a := (F s.cpu.a s.cpu).1 } } := by
  rw [onAccumulator, hf]
  rfl

/-- Settles O25: each memory row is the spec's modifying instruction with its shift, and the accumulator forms apply the
same shift to `A`. -/
theorem shiftsAndRotates : Obligations.ShiftsAndRotates := by
  refine ⟨?memory, ⟨rfl, rfl, rfl, rfl⟩, ?accumulator⟩
  case memory =>
    intro k op i m n s h
    refine ⟨fun _ => encode_modifyRow h, ?asl, ?lsr, ?rol, ?ror⟩
    all_goals
      rintro rfl
      exact modifies_modifyRow h s
  case accumulator =>
    intro s onA
    rw [exec_impliedRow .aslAccumulator, exec_impliedRow .lsrAccumulator, exec_impliedRow .rolAccumulator,
      exec_impliedRow .rorAccumulator, onAccumulator_eq shiftLeft_eq, onAccumulator_eq shiftRight_eq,
      onAccumulator_eq rotateLeft_eq, onAccumulator_eq rotateRight_eq]
    exact ⟨rfl, rfl, rfl, rfl⟩

/-- Adding a byte to a byte, in integers. -/
theorem byte_add_eq_ofNat (x k : Byte) : x + k = BitVec.ofNat 8 (x.toNat + k.toNat) := by
  apply BitVec.eq_of_toNat_eq
  simp only [BitVec.toNat_add, BitVec.toNat_ofNat]

/-- Settles O26: INC and DEC are modifying rows; the index forms load what they make of `X` or `Y`. -/
theorem incrementsAndDecrements : Obligations.IncrementsAndDecrements := by
  refine ⟨?memory, ⟨rfl, rfl, rfl, rfl⟩, ?index⟩
  case memory =>
    intro k op i m n s h
    refine ⟨fun _ => encode_modifyRow h, ?inc, ?dec⟩
    all_goals
      rintro rfl
      exact modifies_modifyRow h s
  case index =>
    intro s
    rw [exec_impliedRow .inx, exec_impliedRow .iny, exec_impliedRow .dex, exec_impliedRow .dey]
    simp only [stepX, stepY, byte_add_eq_ofNat, loadX_eq, loadY_eq]
    exact ⟨rfl, rfl, rfl, rfl⟩

/-- Settles O27: each row is the spec's modifying instruction with its two operations. -/
theorem combinationsCompose : Obligations.CombinationsCompose := by
  intro k op i m n s h
  refine ⟨fun _ => encode_modifyRow h, ?slo, ?rla, ?sre, ?rra, ?dcp, ?isc⟩
  all_goals
    rintro rfl
    exact modifies_modifyRow h s

end Sys2Proof.Machine
end

section
/-! Which registers and flags each mnemonic writes (10_state.md section 1): one relation between the registers before and
after, checked for the effect of each kind of row. -/

namespace Sys2Proof.Machine

open Spec (Mnemonic ReadRow WriteRow ModifyRow)

/-- What a reading mnemonic does to the registers with its operand (41_load_store_transfer.md R180 to R182,
42_logic_shift_bit.md R210 to R212, R217, 43_compare_incdec_arith.md R230 to R232, R239, R240, 45_unofficial.md R306). -/
def readRegisters : Mnemonic → Byte → Cpu → Cpu
  | .lda => Spec.toA
  | .ldx => Spec.toX
  | .ldy => Spec.toY
  | .lax => fun m q => { q with a := m, x := m, p := Spec.nz q.p m }
  | .and => fun m q => Spec.toA (q.a &&& m) q
  | .ora => fun m q => Spec.toA (q.a ||| m) q
  | .eor => fun m q => Spec.toA (q.a ^^^ m) q
  | .bit => fun m q => { q with p := { q.p with z := decide ((q.a &&& m).toNat = 0), n := decide (128 ≤ m.toNat),
                                                v := decide (64 ≤ m.toNat % 128) } }
  | .cmp => fun m q => Spec.comparison q.a m q
  | .cpx => fun m q => Spec.comparison q.x m q
  | .cpy => fun m q => Spec.comparison q.y m q
  | .adc => Spec.adc
  | .sbc => Spec.sbc
  | _ => fun _ q => q

theorem readEffect_eq (k : Mnemonic) (m : Byte) (s : State) :
    readEffect k m s = { s with cpu := readRegisters k m s.cpu } := by
  cases k
  case lda => exact loadA_eq m s
  case ldx => exact loadX_eq m s
  case ldy => exact loadY_eq m s
  case lax => exact loadAX_eq m s
  case and => exact andA_eq m s
  case ora => exact oraA_eq m s
  case eor => exact eorA_eq m s
  case bit => exact bitA_eq m s
  case cmp => exact setP_compare s.cpu.a m s
  case cpx => exact setP_compare s.cpu.x m s
  case cpy => exact setP_compare s.cpu.y m s
  case adc => exact addA_eq m s
  case sbc => exact subtractA_eq m s
  all_goals rfl

/-- Every reading row completes as the spec's reading instruction with its mnemonic's effect. -/
theorem exec_readRow {k : Mnemonic} {op : Byte} {i : Instr} {src : Source} {c : Cost} (h : ReadRow k op i src c)
    (s : State) : exec i s = .next (Spec.readResult src c (readRegisters k) s) :=
  exec_eq_readResult h (readEffect_eq k) s

/-- Between `q` and `q'` only registers and flags changed that the spec names `k` a writer of (10_state.md section 1). -/
def WritesOnlyNamed (k : Mnemonic) (q q' : Cpu) : Prop :=
  (k ∉ [.lda, .lax, .pla, .txa, .tya, .and, .ora, .eor, .adc, .sbc, .asl, .lsr, .rol, .ror, .slo, .rla, .sre, .rra,
        .isc] → q'.a = q.a) ∧
  (k ∉ [.ldx, .lax, .tax, .tsx, .inx, .dex] → q'.x = q.x) ∧
  (k ∉ [.ldy, .tay, .iny, .dey] → q'.y = q.y) ∧
  (k ∉ [.txs, .pha, .php, .pla, .plp, .jsr, .rts, .rti, .brk] → q'.s = q.s) ∧
  (k ∉ [.bpl, .bmi, .bvc, .bvs, .bcc, .bcs, .bne, .beq, .jmp, .jsr, .rts, .rti, .brk] → q'.pc = q.pc) ∧
  (k ∉ [.lda, .ldx, .ldy, .lax, .tax, .tay, .txa, .tya, .tsx, .pla, .and, .ora, .eor, .asl, .lsr, .rol, .ror, .inc,
        .dec, .inx, .iny, .dex, .dey, .adc, .sbc, .slo, .rla, .sre, .rra, .isc, .cmp, .cpx, .cpy, .dcp, .bit, .plp,
        .rti] → q'.p.n = q.p.n ∧ q'.p.z = q.p.z) ∧
  (k ∉ [.adc, .sbc, .rra, .isc, .bit, .clv, .plp, .rti] → q'.p.v = q.p.v) ∧
  (k ∉ [.brk, .plp, .rti] → q'.p.b = q.p.b) ∧
  (k ∉ [.sed, .cld, .plp, .rti] → q'.p.d = q.p.d) ∧
  (k ∉ [.sei, .cli, .plp, .rti, .brk] → q'.p.i = q.p.i) ∧
  (k ∉ [.adc, .sbc, .rra, .isc, .asl, .lsr, .rol, .ror, .slo, .rla, .sre, .cmp, .cpx, .cpy, .dcp, .sec, .clc, .plp,
        .rti] → q'.p.c = q.p.c)

theorem WritesOnlyNamed.refl (k : Mnemonic) (q : Cpu) : WritesOnlyNamed k q q := by
  refine ⟨?_, ?_, ?_, ?_, ?_, ?_, ?_, ?_, ?_, ?_, ?_⟩ <;> simp

/-- The operand's effect writes only what its mnemonic is named for; a mnemonic that reads none has no effect. -/
theorem readRegisters_writesOnlyNamed (k : Mnemonic) (m : Byte) (q : Cpu) :
    WritesOnlyNamed k q (readRegisters k m q) := by
  cases k
  case lda | ldx | ldy | lax | and | ora | eor =>
    simp [WritesOnlyNamed, readRegisters, Spec.toA, Spec.toX, Spec.toY, Spec.nz]
  case bit => simp [WritesOnlyNamed, readRegisters]
  case cmp | cpx | cpy => simp [WritesOnlyNamed, readRegisters, Spec.comparison]
  case adc | sbc => simp [WritesOnlyNamed, readRegisters, Spec.adc, Spec.sbc, Spec.nz]
  all_goals exact .refl _ q

/-- The two operations of a modifying mnemonic write only what it is named for. -/
theorem modifyEffect_writesOnlyNamed (k : Mnemonic) (m : Byte) (q : Cpu) :
    WritesOnlyNamed k q (Spec.andThen (firstEffect k) (secondEffect k) m q).2 := by
  cases k
  case asl | lsr | rol | ror =>
    simp [WritesOnlyNamed, Spec.andThen, firstEffect, secondEffect, Spec.asl, Spec.lsr, Spec.rol, Spec.ror, Spec.shift,
      Spec.nz]
  case inc | dec =>
    simp [WritesOnlyNamed, Spec.andThen, firstEffect, secondEffect, Spec.inc, Spec.dec, Spec.nz]
  case slo | rla | sre =>
    simp [WritesOnlyNamed, Spec.andThen, firstEffect, secondEffect, Spec.asl, Spec.lsr, Spec.rol, Spec.shift, Spec.toA,
      Spec.nz]
  case rra => simp [WritesOnlyNamed, Spec.andThen, firstEffect, secondEffect, Spec.ror, Spec.shift, Spec.adc, Spec.nz]
  case dcp => simp [WritesOnlyNamed, Spec.andThen, firstEffect, secondEffect, Spec.dec, Spec.comparison, Spec.nz]
  case isc => simp [WritesOnlyNamed, Spec.andThen, firstEffect, secondEffect, Spec.inc, Spec.sbc, Spec.nz]
  all_goals exact .refl _ q

theorem jumpIndirect_cpu (w : Addr) (s : State) :
    (jumpIndirect w s).cpu = { s.cpu with pc := (read16Bug w s).1 } := by
  simp [jumpIndirect, read16Bug, State.setPc]

/-- The entry through the vector at 0xFFFE, with the break bit (60_exceptions.md R448). -/
theorem softwareInterrupt_writesOnlyNamed (s : State) : WritesOnlyNamed .brk s.cpu (softwareInterrupt s).cpu := by
  unfold softwareInterrupt
  split
  · exact .refl _ _
  · rw [enter_eq _ _ _ (by decide) (by decide)]
    simp [WritesOnlyNamed]

/-- The implied rows write only what their mnemonic is named for. -/
theorem impliedRow_writesOnlyNamed {k : Mnemonic} {op : Byte} {i : Instr} {f : State → State} {n : Nat}
    (h : ImpliedRow k op i f n) (s : State) : WritesOnlyNamed k s.cpu (f s).cpu := by
  cases h
  case aslAccumulator | lsrAccumulator | rolAccumulator | rorAccumulator =>
    simp [WritesOnlyNamed, onAccumulator, shiftLeft, shiftRight, rotateLeft, rotateRight, shifted]
  case tax | tay | txa | tya | tsx | txs =>
    simp [WritesOnlyNamed, transferAX, transferAY, transferXA, transferYA, transferSX, transferXS, loadA, loadX, loadY]
  case inx | iny | dex | dey => simp [WritesOnlyNamed, stepX, stepY, loadX, loadY]
  case pha | php => simp [WritesOnlyNamed, pushA, pushP, push]
  case pla | plp => simp [WritesOnlyNamed, pullA, pullP, pull_eq, loadA]
  case jmpAbsolute w => simp [WritesOnlyNamed]
  case jmpIndirect w => simp [WritesOnlyNamed, jumpIndirect_cpu]
  case jsr w => simp [WritesOnlyNamed, callSub, push]
  case rts => simp [WritesOnlyNamed, returnSub, pull_eq]
  case rti => simp [WritesOnlyNamed, leave_eq]
  case brk => exact softwareInterrupt_writesOnlyNamed s
  all_goals simp [WritesOnlyNamed]

/-- A branch writes at most the program counter. -/
theorem branchRow_writesOnlyNamed {k : Mnemonic} {op d : Byte} {i : Instr} (h : Spec.BranchRow k op d i) {s t : State}
    (ht : exec i s = .next t) : WritesOnlyNamed k s.cpu t.cpu := by
  rw [exec_branchRow h, branchClass] at ht
  split at ht <;> cases ht
  · cases h <;> simp [WritesOnlyNamed]
  · exact .refl _ _

/-- Settles O14: the effect of every kind of row writes only what its mnemonic is named for. -/
theorem onlyNamedWritersChangeARegister : Obligations.OnlyNamedWritersChangeARegister := by
  intro i k s t hk ht
  change WritesOnlyNamed k s.cpu t.cpu
  cases instrRow i with
  | read h =>
    obtain rfl := Option.some.inj ((mnemonic_readRow h).symm.trans hk)
    rw [exec_readRow h] at ht
    cases ht
    exact readRegisters_writesOnlyNamed _ _ s.cpu
  | write h =>
    rw [next_of_stores (stores_writeRow h s) ht, stored_cpu]
    exact .refl k s.cpu
  | modify h =>
    obtain rfl := Option.some.inj ((mnemonic_modifyRow h).symm.trans hk)
    rw [next_of_modifies (modifies_modifyRow h s) ht]
    exact modifyEffect_writesOnlyNamed _ _ s.cpu
  | nop h =>
    rw [exec_nopRow h] at ht
    cases ht
    exact .refl k s.cpu
  | nopIndexed h =>
    rw [exec_nopIndexedRow h] at ht
    cases ht
    exact .refl k s.cpu
  | branch h =>
    obtain rfl := Option.some.inj ((mnemonic_branchRow h).symm.trans hk)
    exact branchRow_writesOnlyNamed h ht
  | implied h =>
    obtain rfl := Option.some.inj ((mnemonic_impliedRow h).symm.trans hk)
    rw [exec_impliedRow h] at ht
    cases ht
    exact impliedRow_writesOnlyNamed h s
  | unmapped op h =>
    subst h
    cases ht

end Sys2Proof.Machine
end

section
/-! That mapped instructions complete, what they cost, and when they copy to OAM (30_encoding.md section 4,
46_ppu_ports.md R352, 48_system_driver.md R421). -/

namespace Sys2Proof.Machine

open Spec (Mnemonic ReadRow WriteRow ModifyRow NopRow NopIndexedRow BranchRow)

/-! ## Which instructions write, and what -/

theorem writeRow_unique {k k' : Mnemonic} {op op' : Byte} {i : Instr} {m m' : AddrMode} {n n' : Nat}
    (h : WriteRow k op i m n) (h' : WriteRow k' op' i m' n') : k' = k ∧ m' = m := by
  cases h <;> cases h' <;> exact ⟨rfl, rfl⟩

theorem modifyRow_unique {k k' : Mnemonic} {op op' : Byte} {i : Instr} {m m' : AddrMode} {n n' : Nat}
    (h : ModifyRow k op i m n) (h' : ModifyRow k' op' i m' n') : k' = k ∧ m' = m := by
  cases h <;> cases h' <;> exact ⟨rfl, rfl⟩

theorem not_modifyRow_of_writeRow {k k' : Mnemonic} {op op' : Byte} {i : Instr} {m m' : AddrMode} {n n' : Nat}
    (h : WriteRow k op i m n) : ¬ ModifyRow k' op' i m' n' := by
  cases h <;> exact nofun

/-- A storing row writes the byte of its mnemonic to its effective address, and nothing else. -/
theorem writes_writeRow {k : Mnemonic} {op : Byte} {i : Instr} {m : AddrMode} {n : Nat} (h : WriteRow k op i m n)
    (s : State) (a : Addr) (v : Byte) :
    Spec.Writes i s a v ↔ (effAddr m s).1.addr = a ∧ v = storedByte k s := by
  have hbyte : ∀ b, Spec.writtenByte k b s.cpu = storedByte k s := by cases h <;> exact fun _ => rfl
  constructor
  · rintro ⟨k', op', m', n', h' | h', ha, hv⟩
    · obtain ⟨rfl, rfl⟩ := writeRow_unique h h'
      exact ⟨ha, hv.trans (hbyte _)⟩
    · exact absurd h' (not_modifyRow_of_writeRow h)
  · rintro ⟨ha, hv⟩
    exact ⟨k, op, m, n, .inl h, ha, hv.trans (hbyte _).symm⟩

/-- A modifying row writes what its first operation makes of the byte at its effective address, back to it. -/
theorem writes_modifyRow {k : Mnemonic} {op : Byte} {i : Instr} {m : AddrMode} {n : Nat} (h : ModifyRow k op i m n)
    (s : State) (a : Addr) (v : Byte) :
    Spec.Writes i s a v ↔ (effAddr m s).1.addr = a ∧ v = (firstEffect k (memRead a s).1 s.cpu).1 := by
  have hbyte : ∀ b, Spec.writtenByte k b s.cpu = (firstEffect k b s.cpu).1 := by cases h <;> exact fun _ => rfl
  constructor
  · rintro ⟨k', op', m', n', h' | h', ha, hv⟩
    · exact absurd h (not_modifyRow_of_writeRow h')
    · obtain ⟨rfl, rfl⟩ := modifyRow_unique h h'
      exact ⟨ha, hv.trans (hbyte _)⟩
  · rintro ⟨ha, hv⟩
    exact ⟨k, op, m, n, .inr h, ha, hv.trans (hbyte _).symm⟩

/-- The mnemonics of the storing and the modifying rows. -/
def writing : List Mnemonic :=
  [.sta, .stx, .sty, .sax, .asl, .lsr, .rol, .ror, .inc, .dec, .slo, .rla, .sre, .rra, .dcp, .isc]

/-- An instruction of another mnemonic writes no byte. -/
theorem not_writes_of_mnemonic {i : Instr} {k : Mnemonic} (hi : Spec.mnemonic i = some k) (hk : k ∉ writing)
    (s : State) (a : Addr) (v : Byte) : ¬ Spec.Writes i s a v := by
  rintro ⟨k', op, m, n, h | h, -⟩
  · obtain rfl := Option.some.inj ((mnemonic_writeRow h).symm.trans hi)
    exact hk (by cases h <;> decide)
  · obtain rfl := Option.some.inj ((mnemonic_modifyRow h).symm.trans hi)
    exact hk (by cases h <;> decide)

theorem not_writes_readRow {k : Mnemonic} {op : Byte} {i : Instr} {src : Source} {c : Cost} (h : ReadRow k op i src c) :
    ∀ s a v, ¬ Spec.Writes i s a v :=
  not_writes_of_mnemonic (mnemonic_readRow h) (by cases h <;> decide)

theorem not_writes_branchRow {k : Mnemonic} {op d : Byte} {i : Instr} (h : BranchRow k op d i) :
    ∀ s a v, ¬ Spec.Writes i s a v :=
  not_writes_of_mnemonic (mnemonic_branchRow h) (by cases h <;> decide)

/-- An implied row writes no byte; the accumulator forms share their mnemonic with modifying rows. -/
theorem not_writes_impliedRow {k : Mnemonic} {op : Byte} {i : Instr} {f : State → State} {n : Nat}
    (h : ImpliedRow k op i f n) : ∀ s a v, ¬ Spec.Writes i s a v := by
  have hi := mnemonic_impliedRow h
  cases h
  case aslAccumulator | lsrAccumulator | rolAccumulator | rorAccumulator =>
    rintro s a v ⟨k', op', m, n, h | h, -⟩ <;> cases h
  all_goals exact not_writes_of_mnemonic hi (by decide)

/-! ## Completion and cost -/

/-- The instruction completes at the cost of its cycle column, but for the refused write (the body of O8). -/
def CompletesAtCost (i : Instr) (s : State) : Prop :=
  ∃ (op : Byte) (operands : List Byte) (base penalty : Nat),
    encode i = op :: operands ∧ Spec.cost op = some (base, penalty) ∧
    ((∀ page : Byte, Spec.Writes i s 0x4014 page → page.toNat < 0x20 ∨ 0x7F < page.toNat) →
      ∃ t, exec i s = .next t ∧ base ≤ t.cycles ∧ t.cycles ≤ base + penalty) ∧
    (∀ page : Byte, Spec.Writes i s 0x4014 page → 0x20 ≤ page.toNat → page.toNat ≤ 0x7F →
      exec i s = .refused (.dmaSourceUnspecified page))

/-- An instruction that writes no byte and completes within its cycle column. -/
theorem completesAtCost_of_not_writes {i : Instr} {s t : State} {op : Byte} {operands : List Byte} {base penalty : Nat}
    (hw : ∀ s a v, ¬ Spec.Writes i s a v) (henc : encode i = op :: operands)
    (hcost : Spec.cost op = some (base, penalty)) (ht : exec i s = .next t) (hlo : base ≤ t.cycles)
    (hhi : t.cycles ≤ base + penalty) : CompletesAtCost i s :=
  ⟨op, operands, base, penalty, henc, hcost, fun _ => ⟨t, ht, hlo, hhi⟩, fun page h => absurd h (hw s _ page)⟩

/-- An instruction that writes one byte, completes at a fixed cost where the write has a meaning and is refused where it
has none. -/
theorem completesAtCost_of_writes {i : Instr} {s t : State} {op : Byte} {operands : List Byte} {n : Nat} {a : Addr}
    {v : Byte} (hw : ∀ page, Spec.Writes i s 0x4014 page ↔ a = 0x4014 ∧ page = v) (henc : encode i = op :: operands)
    (hcost : Spec.cost op = some (n, 0)) (hnext : Spec.Storable a v → exec i s = .next t) (hcycles : t.cycles = n)
    (hrefused : ¬ Spec.Storable a v → exec i s = .refused (.dmaSourceUnspecified v)) : CompletesAtCost i s := by
  refine ⟨op, operands, n, 0, henc, hcost, fun hpages => ?_, fun page hp hlo hhi => ?_⟩
  · have hst : Spec.Storable a v := by
      rintro ⟨ha, hlo, hhi⟩
      rcases hpages v ((hw v).mpr ⟨ha, rfl⟩) with h | h <;> omega
    exact ⟨t, hnext hst, Nat.le_of_eq hcycles.symm, Nat.le_of_eq hcycles⟩
  · obtain ⟨ha, rfl⟩ := (hw page).mp hp
    exact hrefused fun hst => hst ⟨ha, hlo, hhi⟩

theorem Cost.total_bounds (c : Cost) (crossed : Bool) :
    c.column.1 ≤ c.total crossed ∧ c.total crossed ≤ c.column.1 + c.column.2 := by
  cases c <;> cases crossed <;> simp [Cost.column, Cost.total]

theorem readResult_cycles (src : Source) (c : Cost) (g : Byte → Cpu → Cpu) (s : State) :
    (Spec.readResult src c g s).cycles = c.total (Spec.operand src s).2.1 := by
  cases c with
  | fixed n => rfl
  | plusP n => rw [Cost.total_plusP]; rfl

/-- A branch costs 2 cycles, 3 taken, 4 to another page (44_stack_control_flags.md R269). -/
theorem branchClass_next (cond : Flags → Bool) (d : Byte) (s : State) :
    ∃ t, branchClass cond d s = .next t ∧ 2 ≤ t.cycles ∧ t.cycles ≤ 4 := by
  unfold branchClass
  split
  · refine ⟨_, rfl, ?_⟩
    cases pageCrossed s.cpu.pc (branchTarget s.cpu.pc d) <;> simp
  · exact ⟨_, rfl, by simp⟩

/-- Settles O8: each kind of row completes; only the rows that write a byte can be refused. -/
theorem mappedInstructionsComplete : Obligations.MappedInstructionsComplete := by
  intro i s hmapped
  change CompletesAtCost i s
  cases instrRow i with
  | read h =>
    obtain ⟨hlo, hhi⟩ := Cost.total_bounds _ (Spec.operand _ s).2.1
    rw [← readResult_cycles _ _ (readRegisters _) s] at hlo hhi
    exact completesAtCost_of_not_writes (not_writes_readRow h) (encode_eq_sourceBytes h) (cost_readRow h)
      (exec_readRow h s) hlo hhi
  | write h =>
    obtain ⟨hnext, hrefused⟩ := stores_writeRow h s
    exact completesAtCost_of_writes (fun page => writes_writeRow h s _ page) (encode_writeRow h) (cost_writeRow h)
      hnext rfl hrefused
  | modify h =>
    obtain ⟨hnext, hrefused⟩ := modifies_modifyRow h s
    refine completesAtCost_of_writes (fun page => (writes_modifyRow h s _ page).trans ?_) (encode_modifyRow h)
      (cost_modifyRow h) hnext rfl hrefused
    exact and_congr_right fun ha => by rw [← ha]; rfl
  | nop h =>
    exact completesAtCost_of_not_writes (not_writes_of_mnemonic (mnemonic_nopRow h) (by decide))
      (encode_nopRow h) (cost_nopRow h) (exec_nopRow h s)
      (Nat.le_refl _) (Nat.le_refl _)
  | nopIndexed h =>
    obtain ⟨hlo, hhi⟩ := Cost.total_bounds (.plusP 4) (indexed _ s.cpu.x).crossed
    exact completesAtCost_of_not_writes (not_writes_of_mnemonic (mnemonic_nopIndexedRow h) (by decide))
      (encode_nopIndexedRow h) (cost_nopIndexedRow h)
      (exec_nopIndexedRow h s) hlo hhi
  | branch h =>
    obtain ⟨t, ht, hlo, hhi⟩ := branchClass_next _ _ s
    exact completesAtCost_of_not_writes (not_writes_branchRow h) (encode_branchRow h) (cost_branchRow h)
      ((exec_branchRow h s).trans ht) hlo hhi
  | implied h =>
    obtain ⟨operands, henc⟩ := encode_impliedRow h
    exact completesAtCost_of_not_writes (not_writes_impliedRow h) henc (cost_impliedRow h) (exec_impliedRow h s)
      (Nat.le_refl _) (Nat.le_refl _)
  | unmapped op h =>
    subst h
    cases hmapped

/-- No cycle column is less than 2 or more than 8 (30_encoding.md R136). -/
theorem cost_bounds {op : Byte} {base penalty : Nat} (h : Spec.cost op = some (base, penalty)) :
    2 ≤ base ∧ base + penalty ≤ 8 := by
  have hall : ∀ op, (Spec.cost op).all fun c => decide (2 ≤ c.1) && decide (c.1 + c.2 ≤ 8) := by decide
  simpa [h] using hall op

theorem mapped_or_unmapped (i : Instr) : i.mapped = true ∨ ∃ op, i = .unmapped op := by
  cases i
  case unmapped op => exact .inr ⟨op, rfl⟩
  all_goals exact .inl rfl

/-- An instruction that completes takes 2 to 8 cycles. -/
theorem exec_cycles {i : Instr} {s t : State} (h : exec i s = .next t) : 2 ≤ t.cycles ∧ t.cycles ≤ 8 := by
  rcases mapped_or_unmapped i with hmapped | ⟨op, rfl⟩
  · obtain ⟨op, operands, base, penalty, -, hcost, hnext, hrefused⟩ := mappedInstructionsComplete i s hmapped
    obtain ⟨t', ht', hlo, hhi⟩ := hnext fun page hpage => Decidable.byContradiction fun hun => by
      have := hrefused page hpage (by omega) (by omega)
      rw [h] at this
      cases this
    obtain rfl : t = t' := by rw [h] at ht'; cases ht'; rfl
    obtain ⟨hbase, hsum⟩ := cost_bounds hcost
    omega
  · cases h

/-! ## DMA cycles -/

/-- A store adds 513 cycles at the DMA trigger and none elsewhere (46_ppu_ports.md R352). -/
theorem stored_dmaCycles (a : Addr) (v : Byte) (s : State) :
    (Spec.stored a v s).dmaCycles = s.dmaCycles + if a = 0x4014 then 513 else 0 := by
  unfold Spec.stored
  split
  · rfl
  · exact (busStore_keeps a v s).2.2.2.2.1

theorem memRead_dmaCycles (a : Addr) (s : State) : (memRead a s).2.dmaCycles = s.dmaCycles :=
  (memRead_keeps a s).2.2.2.2.2.1

theorem readResult_dmaCycles (src : Source) (c : Cost) (g : Byte → Cpu → Cpu) (s : State) :
    (Spec.readResult src c g s).dmaCycles = s.dmaCycles := by
  cases src with
  | immediate b => rfl
  | memory m => exact memRead_dmaCycles _ s

theorem softwareInterrupt_dmaCycles (s : State) : (softwareInterrupt s).dmaCycles = s.dmaCycles := by
  unfold softwareInterrupt
  split
  · rfl
  · rw [enter_eq _ _ _ (by decide) (by decide)]
    rfl

/-- The implied rows make no copy: the stack is RAM. -/
theorem impliedRow_dmaCycles {k : Mnemonic} {op : Byte} {i : Instr} {f : State → State} {n : Nat}
    (h : ImpliedRow k op i f n) (s : State) : (f s).dmaCycles = s.dmaCycles := by
  cases h
  case pha | php => simp [pushA, pushP, push_eq]
  case pla | plp => simp [pullA, pullP, pull_eq, loadA]
  case jsr w => simp [callSub, push_eq]
  case rts => simp [returnSub, pull_eq]
  case rti => simp [leave_eq]
  case jmpIndirect w => simp [jumpIndirect, read16Bug, memRead_dmaCycles]
  case brk => exact softwareInterrupt_dmaCycles s
  all_goals rfl

/-- `t` has the DMA cycles of `s`, and 513 more exactly when `i` writes to the trigger in `s`. -/
def CopiesAtTrigger (i : Instr) (s t : State) : Prop :=
  ((∃ page, Spec.Writes i s 0x4014 page) → t.dmaCycles = s.dmaCycles + 513) ∧
  ((¬ ∃ page, Spec.Writes i s 0x4014 page) → t.dmaCycles = s.dmaCycles)

theorem copiesAtTrigger_of_not_writes {i : Instr} {s t : State} (hw : ∀ s a v, ¬ Spec.Writes i s a v)
    (ht : t.dmaCycles = s.dmaCycles) : CopiesAtTrigger i s t :=
  ⟨fun ⟨page, hp⟩ => absurd hp (hw s _ page), fun _ => ht⟩

theorem copiesAtTrigger_of_writes {i : Instr} {s t : State} {a : Addr} {v : Byte}
    (hw : ∀ page, Spec.Writes i s 0x4014 page ↔ a = 0x4014 ∧ page = v)
    (ht : t.dmaCycles = s.dmaCycles + if a = 0x4014 then 513 else 0) : CopiesAtTrigger i s t := by
  refine ⟨fun ⟨page, hp⟩ => ?_, fun hn => ?_⟩
  · rw [ht, if_pos ((hw page).mp hp).1]
  · rw [ht, if_neg fun ha => hn ⟨v, (hw v).mpr ⟨ha, rfl⟩⟩, Nat.add_zero]

/-- An instruction that completes has added the cycles of the copy it made, if it made one. -/
theorem exec_copiesAtTrigger {i : Instr} {s t : State} (ht : exec i s = .next t) : CopiesAtTrigger i s t := by
  cases instrRow i with
  | read h =>
    rw [exec_readRow h] at ht
    cases ht
    exact copiesAtTrigger_of_not_writes (not_writes_readRow h) (readResult_dmaCycles _ _ _ s)
  | write h =>
    rw [next_of_stores (stores_writeRow h s) ht]
    exact copiesAtTrigger_of_writes (fun page => writes_writeRow h s _ page) (stored_dmaCycles _ _ s)
  | modify h =>
    rw [next_of_modifies (modifies_modifyRow h s) ht]
    refine copiesAtTrigger_of_writes (fun page => writes_modifyRow h s _ page) ?_
    exact (stored_dmaCycles _ _ _).trans (by rw [memRead_dmaCycles])
  | nop h =>
    rw [exec_nopRow h] at ht
    cases ht
    exact copiesAtTrigger_of_not_writes (not_writes_of_mnemonic (mnemonic_nopRow h) (by decide)) rfl
  | nopIndexed h =>
    rw [exec_nopIndexedRow h] at ht
    cases ht
    exact copiesAtTrigger_of_not_writes (not_writes_of_mnemonic (mnemonic_nopIndexedRow h) (by decide)) rfl
  | branch h =>
    rw [exec_branchRow h, branchClass] at ht
    refine copiesAtTrigger_of_not_writes (not_writes_branchRow h) ?_
    split at ht <;> cases ht <;> rfl
  | implied h =>
    rw [exec_impliedRow h] at ht
    cases ht
    exact copiesAtTrigger_of_not_writes (not_writes_impliedRow h) (impliedRow_dmaCycles h s)
  | unmapped op h =>
    subst h
    cases ht

theorem fetch8_dmaCycles (s : State) : (fetch8 s).2.dmaCycles = s.dmaCycles := memRead_dmaCycles _ s

theorem fetchInstr_dmaCycles (s : State) : (fetchInstr s).2.dmaCycles = s.dmaCycles := by
  unfold fetchInstr
  dsimp only
  split
  · exact fetch8_dmaCycles s
  · exact (fetch8_dmaCycles _).trans (fetch8_dmaCycles s)
  · exact ((fetch8_dmaCycles _).trans (fetch8_dmaCycles _)).trans (fetch8_dmaCycles s)

/-- What a CPU step of a running machine returns: 2 to 8 cycles, and the cycles of the copy when its instruction makes
one (40_addressing.md R160, 48_system_driver.md R421). -/
theorem cpuStep_counts {s c : State} (h : cpuStep s = .next c) :
    2 ≤ c.cycles ∧ c.cycles ≤ 8 ∧
    (Spec.TriggersCopy s → c.dmaCycles = s.dmaCycles + 513) ∧ (¬ Spec.TriggersCopy s → c.dmaCycles = s.dmaCycles) := by
  obtain ⟨-, ⟨hn, rfl⟩ | ⟨hn, hl, hi, rfl⟩ | ⟨hn, hl, hx⟩⟩ := cpuStep_next h
  · have hp : poll s = .nmi := by simp [poll, hn]
    refine ⟨(by decide : 2 ≤ 7), (by decide : 7 ≤ 8), fun ⟨hp', _⟩ => ?_, fun _ => ?_⟩
    · rw [hp] at hp'; cases hp'
    · rw [takeNmi, enter_eq _ _ _ (by decide) (by decide)]; rfl
  · have hp : poll s = .irq := by simp [poll, hn, hl, hi]
    refine ⟨(by decide : 2 ≤ 7), (by decide : 7 ≤ 8), fun ⟨hp', _⟩ => ?_, fun _ => ?_⟩
    · rw [hp] at hp'; cases hp'
    · rw [takeIrq, enter_eq _ _ _ (by decide) (by decide)]; rfl
  · have hp : poll s = .instruction := by rcases hl with hl | hl <;> simp [poll, hn, hl]
    obtain ⟨hlo, hhi⟩ := exec_cycles hx
    obtain ⟨hcopy, hnone⟩ := exec_copiesAtTrigger hx
    rw [fetchInstr_dmaCycles] at hcopy hnone
    exact ⟨hlo, hhi, fun ⟨_, hw⟩ => hcopy hw, fun hn => hnone fun hw => hn ⟨hp, hw⟩⟩

/-- No CPU step moves the picture unit's position. -/
theorem kept_position : Kept fun s t => t.ppu.position = s.ppu.position where
  refl _ := rfl
  trans h h' := h'.trans h
  regs _ _ _ _ := rfl
  charge _ _ := rfl
  read s a := (memRead_sameTime s a).position
  store s a v := (busStore_sameTime s a v).position
  dma s t pg h := (kept_sameTime.dma s t pg h).position

/-- The position after a run of dots, in numbers (47_ppu_timing_render.md R372). -/
theorem runDots_position_mod {s : State} (h : s.ppu.wf = true) (k : Nat) :
    (runDots k s).ppu.position = (s.ppu.position + k) % 89342 := runDots_position h

/-- Settles O12: every dot moves the position on by one, and the dots of a step are those owed from before and those of
the counts its CPU step returned. -/
theorem stepAdvancesThreeDotsPerCycle : Obligations.StepAdvancesThreeDotsPerCycle := by
  refine ⟨fun k s hs => ?dots, fun s t hs ht => ?step⟩
  case dots =>
    obtain ⟨-, -, hu⟩ := (State.wf_iff s).mp hs
    have hlt : s.ppu.position < 89342 := Ppu.position_lt hu
    refine ⟨runDots_position_mod hu k, ?_⟩
    rw [runDots_position_mod hu]
    omega
  case step =>
    obtain ⟨-, c, hc, rfl⟩ := step_eq_next.mp ht
    obtain ⟨-, -, hcopy, hnone⟩ := cpuStep_counts hc
    have hb0 : (beginStep s).dmaCycles = 0 := rfl
    rw [hb0] at hcopy hnone
    refine ⟨c, hc, runDots_cycles _ _, ?position, hcopy, hnone⟩
    obtain ⟨-, -, hu⟩ := (State.wf_iff s).mp hs
    obtain ⟨-, -, hcu⟩ := (State.wf_iff c).mp (stepKept_wf.cpuStep hc (stepKept_wf.beginStep s hs))
    have hb : (beginStep s).ppu.position = (s.ppu.position + s.dotDebt) % 89342 := runDots_position_mod hu _
    have hcpos : c.ppu.position = (beginStep s).ppu.position := kept_position.cpuStep (fun _ => rfl) hc
    calc (endStep c).ppu.position
        = (c.ppu.position + 3 * (c.cycles + c.dmaCycles)) % 89342 :=
          runDots_position_mod (s := { c with dmaCycles := 0 }) hcu _
      _ = (s.ppu.position + s.dotDebt + 3 * (c.cycles + c.dmaCycles)) % 89342 := by
          rw [hcpos, hb, Nat.mod_add_mod]

end Sys2Proof.Machine
end

section
/-! `run_frame` against `System.step` (48_system_driver.md R420 to R423): the loop of `run_frame` makes the same CPU
steps as turns of the driver do; only the last one's dots are cut where the frame ends. -/

namespace Sys2Proof.Machine

/-! ## Runs of dots and the fields no dot looks at -/

/-- A change of the machine that one dot does not look at goes through a run of dots. -/
theorem runDots_comm {f : State → State} (hf : ∀ s, dotStep (f s) = f (dotStep s)) (k : Nat) (s : State) :
    runDots k (f s) = f (runDots k s) := by
  induction k generalizing s with
  | zero => rfl
  | succ k ih => rw [runDots, runDots, hf, ih]

theorem runDots_setDotDebt (k d : Nat) (s : State) :
    runDots k { s with dotDebt := d } = { runDots k s with dotDebt := d } :=
  runDots_comm (f := fun s => { s with dotDebt := d }) (fun s => by rw [dotStep, dotStep]) k s

theorem runDots_setPublished (k : Nat) (f : Option Frame) (s : State) :
    runDots k { s with published := f } = { runDots k s with published := f } :=
  runDots_comm (f := fun s => { s with published := f }) (fun s => by rw [dotStep, dotStep]) k s

theorem runDots_presentIrq (k : Nat) (levels : List Bool) (s : State) :
    runDots k (presentIrq levels s) = presentIrq levels (runDots k s) := by
  cases levels with
  | nil => rfl
  | cons l levels => exact runDots_comm (f := setIrqLine l) (fun s => by simp only [dotStep, setIrqLine]) k s

theorem runDots_published (k : Nat) (s : State) : (runDots k s).published = s.published := by
  obtain ⟨u, n, h, -⟩ := runDots_state k s
  rw [h]

/-! ## The level the host presents -/

theorem presentIrq_dotDebt (levels : List Bool) (s : State) : (presentIrq levels s).dotDebt = s.dotDebt := by
  cases levels <;> rfl

theorem presentIrq_ppu (levels : List Bool) (s : State) : (presentIrq levels s).ppu = s.ppu := by
  cases levels <;> rfl

theorem presentIrq_published (levels : List Bool) (s : State) : (presentIrq levels s).published = s.published := by
  cases levels <;> rfl

theorem presentIrq_wf {s : State} (levels : List Bool) (h : s.wf = true) : (presentIrq levels s).wf = true := by
  cases levels <;> exact h

theorem presentIrq_setDotDebt (levels : List Bool) (s : State) (d : Nat) :
    presentIrq levels { s with dotDebt := d } = { presentIrq levels s with dotDebt := d } := by
  cases levels <;> rfl

/-! ## The debt -/

/-- The machine after the dots it owes (48_system_driver.md R420, turn (1)). -/
def paid (s : State) : State := { runDots s.dotDebt s with dotDebt := 0 }

theorem setDotDebt_of_eq {s : State} {d : Nat} (h : s.dotDebt = d) : { s with dotDebt := d } = s := by
  rw [← h]

theorem paid_of_dotDebt_eq_zero {s : State} (h : s.dotDebt = 0) : paid s = s := by
  rw [paid, h]
  exact setDotDebt_of_eq h

theorem presentIrq_paid (levels : List Bool) (s : State) : presentIrq levels (paid s) = paid (presentIrq levels s) := by
  rw [paid, paid, presentIrq_setDotDebt, presentIrq_dotDebt, runDots_presentIrq]

/-- A turn begins with the dots owed, so paying them before it changes nothing. -/
theorem beginStep_paid (s : State) : beginStep (paid s) = beginStep s := rfl

/-- Where nothing is owed, a turn's CPU step begins where the loop of `run_frame` begins its own. -/
theorem beginStep_presentIrq {s : State} (levels : List Bool) (h : s.dotDebt = 0) :
    beginStep (presentIrq levels s) = { presentIrq levels s with dmaCycles := 0 } := by
  have hd : (presentIrq levels s).dotDebt = 0 := (presentIrq_dotDebt levels s).trans h
  rw [beginStep, hd]
  exact congrArg (fun t : State => { t with dmaCycles := 0 }) (setDotDebt_of_eq hd)

/-- What the loop leaves owing, when it is paid, gives the state at the end of the turn (R420, R423). -/
theorem paid_payDots {c : State} (h : c.dotDebt = 0) (budget : Nat) :
    paid (payDots (dotsOwed c) budget c) = endStep c := by
  have hdebt : (payDots (dotsOwed c) budget c).dotDebt = dotsOwed c - min (dotsOwed c) budget := runDots_dotDebt _ _
  rw [paid, hdebt, payDots, ← runDots_add, Nat.add_sub_cancel' (Nat.min_le_left _ _), ← runDots_setDotDebt, endStep]
  exact congrArg (runDots (dotsOwed c)) (setDotDebt_of_eq (s := { c with dmaCycles := 0 }) h)

/-- A CPU step from the beginning of a turn completes the turn (48_system_driver.md R420). -/
theorem step_of_cpuStep {s c : State} (h : cpuStep (beginStep s) = .next c) : step s = .next (endStep c) := by
  have hrun : s.cpu.halted = none := (runDots_halted s.dotDebt s).symm.trans (cpuStep_next h).1
  exact step_eq_next.mpr ⟨hrun, c, h, rfl⟩
/-! ## One turn -/

/-- The dots a CPU step owes that starts with no DMA cycles: at least one, at most those of 8 cycles and a copy
(48_system_driver.md R421). -/
theorem dotsOwed_bounds {s c : State} (h : cpuStep (beginStep s) = .next c) : 1 ≤ dotsOwed c ∧ dotsOwed c ≤ 1563 := by
  obtain ⟨hlo, hhi, hcopy, hnone⟩ := cpuStep_counts h
  have hb0 : (beginStep s).dmaCycles = 0 := rfl
  have hdma : c.dmaCycles ≤ 513 := by
    by_cases ht : Spec.TriggersCopy (beginStep s)
    · exact Nat.le_of_eq (by rw [hcopy ht, hb0, Nat.zero_add])
    · rw [hnone ht, hb0]
      exact Nat.zero_le 513
  simp only [dotsOwed, dotsPerCpuCycle]
  omega

/-- A turn whose CPU step completes, then the turns after it. -/
theorem turns_succ {s c : State} {levels : List Bool} (h : cpuStep (beginStep (presentIrq levels s)) = .next c)
    (n : Nat) : Spec.turns (n + 1) levels s = Spec.turns n levels.tail (endStep c) := by
  rw [Spec.turns, step_of_cpuStep h]
  rfl

/-- The dots of a turn whose CPU step completes, and of the turns after it. -/
theorem turnsOwe_succ {s c : State} {levels : List Bool} (h : cpuStep (beginStep (presentIrq levels s)) = .next c)
    (n : Nat) : Spec.turnsOwe (n + 1) levels s = dotsOwed c + Spec.turnsOwe n levels.tail (endStep c) := by
  rw [Spec.turnsOwe, h]
  rfl

/-- A turn of a running machine begins with the dots owed, so paying them before it changes nothing. -/
theorem step_paid {s : State} (h : s.cpu.halted = none) : step (paid s) = step s := by
  have hp : (paid s).cpu.halted = none := (runDots_halted s.dotDebt s).trans h
  rw [step_running h, step_running hp, beginStep_paid]

/-- So it changes neither the turns, at least one, nor what they owe. -/
theorem turns_succ_paid {s : State} (h : s.cpu.halted = none) (n : Nat) (levels : List Bool) :
    Spec.turns (n + 1) levels (paid s) = Spec.turns (n + 1) levels s ∧
    Spec.turnsOwe (n + 1) levels (paid s) = Spec.turnsOwe (n + 1) levels s := by
  have hrun : (presentIrq levels s).cpu.halted = none := by cases levels <;> exact h
  constructor
  · rw [Spec.turns, Spec.turns, presentIrq_paid, step_paid hrun]
  · rw [Spec.turnsOwe, Spec.turnsOwe, presentIrq_paid, beginStep_paid]

/-! ## The loop -/

/-- `v` is the machine `x` exactly `budget` dots on: with the dots owed at first, the first turns that owe the budget,
the last one's dots cut where the budget ends. -/
structure FrameCut (budget : Nat) (levels : List Bool) (x v : State) : Prop where
  wf : v.wf = true
  position : v.ppu.position = (x.ppu.position + budget) % 89342
  debt : v.dotDebt ≤ 1562
  published : v.published = x.published
  turns : ∃ n, Spec.turns n levels (paid x) = .next (paid v) ∧
    x.dotDebt + Spec.turnsOwe n levels (paid x) = budget + v.dotDebt ∧
    ∀ m, m < n → x.dotDebt + Spec.turnsOwe m levels (paid x) < budget

/-- An empty budget needs no turn. -/
theorem FrameCut.refl {x : State} (levels : List Bool) (hwf : x.wf = true) (hdebt : x.dotDebt ≤ 1562) :
    FrameCut 0 levels x x where
  wf := hwf
  position := by
    have hlt : x.ppu.position < 89342 := Ppu.position_lt ((State.wf_iff x).mp hwf).2.2
    omega
  debt := hdebt
  published := rfl
  turns := ⟨0, rfl, by rw [Spec.turnsOwe]; omega, by omega⟩

theorem payDots_dotDebt (owed budget : Nat) (c : State) :
    (payDots owed budget c).dotDebt = owed - min owed budget := runDots_dotDebt _ _

section
variable {x c : State} {levels : List Bool} (hc : cpuStep (beginStep (presentIrq levels x)) = .next c)
include hc

/-- The CPU step of a turn owes no new dots itself. -/
theorem dotDebt_of_cpuStep : c.dotDebt = 0 := kept_dotDebt.cpuStep (fun _ => rfl) hc

theorem payDots_wf (hwf : x.wf = true) (budget : Nat) : (payDots (dotsOwed c) budget c).wf = true := by
  have hcwf : c.wf = true := stepKept_wf.cpuStep hc (stepKept_wf.beginStep _ (presentIrq_wf levels hwf))
  exact stepKept_wf.dots _ _ hcwf

/-- The dots the loop runs move the position on. -/
theorem payDots_position (hwf : x.wf = true) (hdebt : x.dotDebt = 0) (budget : Nat) :
    (payDots (dotsOwed c) budget c).ppu.position = (x.ppu.position + min (dotsOwed c) budget) % 89342 := by
  obtain ⟨-, -, hu⟩ := (State.wf_iff c).mp
    (stepKept_wf.cpuStep hc (stepKept_wf.beginStep _ (presentIrq_wf levels hwf)))
  have hpos : c.ppu.position = x.ppu.position := by
    have h := kept_position.cpuStep (fun _ => rfl) hc
    rw [beginStep_presentIrq levels hdebt] at h
    exact h.trans (by rw [presentIrq_ppu])
  rw [payDots, runDots_position_mod (s := { c with dmaCycles := 0, dotDebt := _ }) hu, ← hpos]

theorem payDots_published (budget : Nat) : (payDots (dotsOwed c) budget c).published = x.published := by
  obtain ⟨-, -, -, hc', -⟩ := stepKept_sameConstants.cpuStep hc
  obtain ⟨-, -, -, hb, -⟩ := stepKept_sameConstants.beginStep (presentIrq levels x)
  rw [payDots, runDots_published]
  exact (hc'.trans hb).trans (presentIrq_published levels x)

/-- One turn of the loop: the cut of what the turn leaves of the budget is, with the turn before it, the cut of the
budget. -/
theorem FrameCut.turn {v : State} {budget : Nat} (hwf : x.wf = true) (hdebt : x.dotDebt = 0) (hbudget : 0 < budget)
    (rest : FrameCut (budget - min (dotsOwed c) budget) levels.tail (payDots (dotsOwed c) budget c) v) :
    FrameCut budget levels x v := by
  obtain ⟨vwf, vpos, vdebt, vpub, n, hturns, howe, hfewer⟩ := rest
  have hmin : min (dotsOwed c) budget ≤ dotsOwed c ∧ min (dotsOwed c) budget ≤ budget := by omega
  rw [payDots_dotDebt, paid_payDots (dotDebt_of_cpuStep hc)] at howe hfewer
  rw [paid_payDots (dotDebt_of_cpuStep hc)] at hturns
  refine ⟨vwf, ?position, vdebt, vpub.trans (payDots_published hc budget), n + 1, ?turns, ?owe, ?fewer⟩
  case position =>
    rw [vpos, payDots_position hc hwf hdebt]
    omega
  case turns => rw [paid_of_dotDebt_eq_zero hdebt, turns_succ hc, hturns]
  case owe =>
    rw [paid_of_dotDebt_eq_zero hdebt, turnsOwe_succ hc]
    omega
  case fewer =>
    intro m hm
    rw [paid_of_dotDebt_eq_zero hdebt]
    cases m with
    | zero => rw [Spec.turnsOwe]; omega
    | succ m =>
      have := hfewer m (by omega)
      rw [turnsOwe_succ hc]
      omega

end

/-- The loop of `run_frame` cuts the turns at its budget, by induction on the fuel: each turn owes at least one dot. -/
theorem frameCut_of_frameLoop {fuel budget : Nat} {levels : List Bool} {x v : State} (hfuel : budget ≤ fuel)
    (hwf : x.wf = true) (hzero : x.dotDebt = 0 ∨ budget = 0) (hdebt : x.dotDebt ≤ 1562)
    (h : frameLoop fuel budget levels x = .next v) : FrameCut budget levels x v := by
  induction fuel generalizing budget levels x with
  | zero =>
    obtain rfl : budget = 0 := by omega
    cases h
    exact .refl levels hwf hdebt
  | succ fuel ih =>
    rw [frameLoop] at h
    split at h
    · next hb =>
      subst hb
      cases h
      exact .refl levels hwf hdebt
    · next hb =>
      have hx0 : x.dotDebt = 0 := hzero.resolve_right hb
      obtain ⟨c, hc, hrest⟩ := Result.andThen_eq_next.mp h
      rw [← beginStep_presentIrq levels hx0] at hc
      obtain ⟨hlo, hhi⟩ := dotsOwed_bounds hc
      have hy := payDots_dotDebt (dotsOwed c) budget c
      exact .turn hc hwf hx0 (by omega) (ih (by omega) (payDots_wf hc hwf budget) (by omega) (by omega) hrest)

/-! ## The frame -/

/-- A completed `run_frame` is the cut of a running machine at 89342 dots: the dots owed first, then the loop. -/
theorem frameCut_of_runFrame {levels : List Bool} {s t : State} (hwf : s.wf = true) (hdebt : s.dotDebt ≤ 1562)
    (h : runFrame levels s = .next t) :
    s.cpu.halted = none ∧ ∃ v, t = { v with published := some v.ppu.frame } ∧
      FrameCut (89342 - s.dotDebt) levels (paid s) v := by
  unfold runFrame at h
  split at h
  · cases h
  · next hrun =>
    have hpay : min s.dotDebt dotsPerFrame = s.dotDebt := Nat.min_eq_left (Nat.le_trans hdebt (by decide))
    simp only [hpay, Nat.sub_self] at h
    obtain ⟨v, hv, ht⟩ := Result.andThen_eq_next.mp h
    have hpaid : (paid s).wf = true := stepKept_wf.dots s.dotDebt s hwf
    exact ⟨hrun, v, (Host.Outcome.next.inj ht).symm,
      frameCut_of_frameLoop (Nat.sub_le _ _) hpaid (.inl rfl) (Nat.zero_le _) hv⟩

/-- Settles O59: the loop's turns begin after the dots owed from before, so they are the turns from `s` itself, and the
dots owed from before and those of the loop are the frame. -/
theorem runFrameIsOneFrame : Obligations.RunFrameIsOneFrame := by
  intro levels s t hwf hdebt h
  obtain ⟨hrun, v, rfl, vwf, vpos, vdebt, vpub, n, hturns, howe, hfewer⟩ := frameCut_of_runFrame hwf hdebt h
  have hzero : (paid s).dotDebt = 0 := rfl
  simp only [paid_of_dotDebt_eq_zero hzero, hzero, Nat.zero_add] at hturns howe hfewer
  cases n with
  | zero => rw [Spec.turnsOwe] at howe; omega
  | succ n =>
    obtain ⟨hturns', howe'⟩ := turns_succ_paid hrun n levels
    refine ⟨?position, vdebt, rfl, vwf, n + 1, paid v, hturns' ▸ hturns, ?owe, ?fewer, ?paid⟩
    case position =>
      obtain ⟨-, -, hu⟩ := (State.wf_iff s).mp hwf
      have hpos : (paid s).ppu.position = (s.ppu.position + s.dotDebt) % 89342 := runDots_position_mod hu _
      have hlt : s.ppu.position < 89342 := Ppu.position_lt hu
      change v.ppu.position = s.ppu.position
      omega
    case owe =>
      change _ = 89342 + v.dotDebt
      omega
    case fewer =>
      intro m hm
      cases m with
      | zero => rw [Spec.turnsOwe]; omega
      | succ m =>
        have hm' := hfewer (m + 1) hm
        have := (turns_succ_paid hrun m levels).2
        omega
    case paid =>
      have hpub : (paid v).published = s.published :=
        ((runDots_published _ v).trans vpub).trans (runDots_published _ s)
      rw [runDots_setPublished, ← hpub]
      rfl

end Sys2Proof.Machine
end

section
/-! The fetch and the poll (40_addressing.md R160, R161, 60_exceptions.md R445 to R449): the fetch of an instruction is
the decoder on the bytes the bus gives from the program counter on. -/

namespace Sys2Proof.Machine

/-! ## The fetch -/

/-- The bus does not look at the program counter. -/
theorem memRead_setPc (a w : Addr) (s : State) :
    memRead a (s.setPc w) = ((memRead a s).1, (memRead a s).2.setPc w) := by
  unfold memRead
  rw [State.setPc_cart]
  cases route s.cart a <;> rfl

theorem fetch8_setPc (w : Addr) (s : State) :
    fetch8 (s.setPc w) = ((memRead w s).1, (memRead w s).2.setPc (w + 1)) := by
  rw [fetch8, State.setPc_cpu_pc, memRead_setPc]
  rfl

/-- The fetch reads as many bytes as the decoder consumes, and leaves the program counter after them. -/
theorem fetchInstr_of_readBytes {s t : State} {bytes : List Byte} {i : Instr}
    (hread : Spec.readBytes bytes.length s.cpu.pc s = (bytes, t)) (hdecode : decode bytes = .ok (i, [])) :
    fetchInstr s = (i, t.setPc (s.cpu.pc + BitVec.ofNat 16 bytes.length)) := by
  cases bytes with
  | nil => cases hdecode
  | cons op operands =>
    have hself : fetch8 s = fetch8 (s.setPc s.cpu.pc) := rfl
    rw [fetchInstr, hself, fetch8_setPc]
    simp only [Spec.readBytes, List.length_cons, Prod.mk.injEq, List.cons.injEq] at hread
    obtain ⟨⟨hop, hoperands⟩, ht⟩ := hread
    rw [decode] at hdecode
    simp only [hop]
    cases hf : formatOf op with
    | f1 j =>
      simp only [hf, Except.ok.injEq, Prod.mk.injEq] at hdecode
      obtain ⟨rfl, rfl⟩ := hdecode
      rw [← ht]
      rfl
    | f2 f =>
      simp only [hf] at hdecode
      rcases operands with _ | ⟨b, _ | ⟨b', operands⟩⟩
      · cases hdecode
      · cases hdecode
        have hb : (memRead (s.cpu.pc + 1) (memRead s.cpu.pc s).2).1 = b := (List.cons.inj hoperands).1
        have ht' : (memRead (s.cpu.pc + 1) (memRead s.cpu.pc s).2).2 = t := ht
        simp only [fetch8_setPc, hb, ht', BitVec.add_assoc]
        rfl
      · cases hdecode
    | f3 f =>
      simp only [hf] at hdecode
      rcases operands with _ | ⟨lo, _ | ⟨hi, _ | ⟨b', operands⟩⟩⟩
      · cases hdecode
      · cases hdecode
      · cases hdecode
        obtain ⟨hlo, hhi⟩ := List.cons.inj hoperands
        have hhi' := (List.cons.inj hhi).1
        simp only [Spec.readBytes, List.length_cons, List.length_nil] at ht
        simp only [fetch16, fetch8_setPc, hlo, hhi', ht]
        rw [BitVec.add_assoc, BitVec.add_assoc]
        rfl
      · cases hdecode

theorem runDots_pc (k : Nat) (s : State) : (runDots k s).cpu.pc = s.cpu.pc := by
  obtain ⟨u, n, h, -⟩ := runDots_state k s
  rw [h]

/-- The step of a running machine that takes no interrupt executes what it fetches. -/
theorem step_of_poll_instruction {s : State} (h : s.cpu.halted = none) (hpoll : poll (beginStep s) = .instruction) :
    step s = Result.andThen (exec (fetchInstr (beginStep s)).1 (fetchInstr (beginStep s)).2)
      fun u => .next (endStep u) := by
  have hb : (beginStep s).cpu.halted = none := (runDots_halted s.dotDebt s).trans h
  rw [step_running h, cpuStep, hb]
  simp only [hpoll]

/-- Settles O3: the fetch gives the decoded instruction, in the state after the reads. -/
theorem stepRunsDecodedInstruction : Obligations.StepRunsDecodedInstruction := by
  intro s t bytes i hrun hpoll hread hdecode
  have hpc : (beginStep s).cpu.pc = s.cpu.pc := runDots_pc s.dotDebt s
  rw [← hpc] at hread
  rw [step_of_poll_instruction hrun hpoll, fetchInstr_of_readBytes hread hdecode, hpc]

/-! ## Code in RAM or ROM -/

/-- Bytes that stand in RAM or ROM are read without a side effect. -/
theorem readBytes_of_peek {a : Addr} {s : State} {bytes : List Byte}
    (h : ∀ (k : Nat) (hk : k < bytes.length), peek s (a + BitVec.ofNat 16 k) = some bytes[k]) :
    Spec.readBytes bytes.length a s = (bytes, s) := by
  induction bytes generalizing a with
  | nil => rfl
  | cons b bytes ih =>
    have hhead : memRead a s = (b, s) := memRead_of_peek (by simpa using h 0 (Nat.succ_pos _))
    have htail := ih (a := a + 1) fun k hk => by
      have haddr : a + 1 + BitVec.ofNat 16 k = a + BitVec.ofNat 16 (k + 1) := by
        rw [Nat.add_comm k 1, BitVec.ofNat_add, ← BitVec.add_assoc]
        rfl
      rw [haddr]
      exact h (k + 1) (Nat.succ_lt_succ hk)
    simp only [List.length_cons, Spec.readBytes, hhead, htail]

/-- The bytes of RAM and ROM depend on those memories only. -/
theorem peek_congr {s t : State} (hram : t.ram = s.ram) (hcart : t.cart = s.cart) (a : Addr) : peek t a = peek s a := by
  rw [peek, peek, hram, hcart]

/-- Settles O4: the reads of stored code change nothing, and the decoder gives the encoded instruction back. -/
theorem stepRunsStoredCode : Obligations.StepRunsStoredCode := by
  intro s i hrun hpoll hi hstored
  have hpeek := peek_congr (runDots_ram s.dotDebt s) (runDots_cart s.dotDebt s)
  refine stepRunsDecodedInstruction s (beginStep s) (encode i) i hrun hpoll ?_ ?_
  · exact readBytes_of_peek fun k hk => (hpeek _).trans (hstored k hk)
  · simpa using decode_encode hi []

/-- Settles O7: an unmapped byte is the whole encoding of its slot, whose meaning is the decode error at the address
before the program counter. -/
theorem unmappedOpcodeStops : Obligations.UnmappedOpcodeStops := by
  refine ⟨fun op s _ => rfl, fun s hrun hpoll => ?step⟩
  case step =>
    intro r hr
    have hread : Spec.readBytes [r.1].length s.cpu.pc (beginStep s) = ([r.1], r.2) := rfl
    rw [stepRunsDecodedInstruction s r.2 [r.1] (.unmapped r.1) hrun hpoll hread (decode_f1 (formatOf_unmapped hr) [])]
    change Result.andThen (raiseDecodeError (s.cpu.pc + 1 - 1) r.1 (r.2.setPc (s.cpu.pc + 1))) _ = _
    rw [BitVec.add_sub_cancel]
    rfl

/-! ## The poll -/

/-- Settles O38: the three outcomes of the poll are the three conditions. -/
theorem interruptsAreTakenAtTheBoundary : Obligations.InterruptsAreTakenAtTheBoundary := by
  intro s hrun
  refine ⟨fun hnmi => ?nmi, fun hnmi hline hi => ?irq, fun hnmi hmask => ?instruction⟩
  case nmi =>
    have hpoll : poll s = .nmi := by simp [poll, hnmi]
    simp only [cpuStep, hrun, hpoll, takeNmi, State.charge]
    rfl
  case irq =>
    have hpoll : poll s = .irq := by simp [poll, hnmi, hline, hi]
    simp only [cpuStep, hrun, hpoll, takeIrq, State.charge]
    rfl
  case instruction =>
    have hpoll : poll s = .instruction := by rcases hmask with h | h <;> simp [poll, hnmi, h]
    simp only [cpuStep, hrun, hpoll]

/-- BRK with the mask of the parameter lifted is the entry (44_stack_control_flags.md R285). -/
theorem softwareInterrupt_unmasked {s : State} (h : s.config.brkRespectsI = false ∨ s.cpu.p.i = false) :
    softwareInterrupt s = enter 0xFFFE true (s.setPc (s.cpu.pc + 1)) := by
  rw [softwareInterrupt, if_neg (by rcases h with h | h <;> simp [h])]
  rfl

/-- Settles O40: the mask is the parameter and the flag `I` together. -/
theorem brkEntersOrIsMasked : Obligations.BrkEntersOrIsMasked := by
  refine ⟨rfl, fun s => ⟨fun hparam hi => ?masked, fun h => ?enters⟩⟩
  case masked =>
    rw [exec_impliedRow .brk, softwareInterrupt, if_pos (by simp [hparam, hi])]
    rfl
  case enters =>
    rw [exec_impliedRow .brk, softwareInterrupt_unmasked h]
    rfl

end Sys2Proof.Machine
end

section
/-! The effective addresses, the routing table case by case, and the frames of the reading and of the storing and
modifying instructions (40_addressing.md sections 2 and 3, 20_memory.md section 1). -/

namespace Sys2Proof.Machine

open Spec (Mnemonic ReadRow WriteRow ModifyRow)

/-! ## Effective addresses -/

theorem toNat_add_byte (b i : Byte) : (b + i).toNat = (b.toNat + i.toNat) % 256 := BitVec.toNat_add b i

theorem toNat_zeroPage (b : Byte) : (zeroPage b).addr.toNat = b.toNat := by
  rw [zeroPage, toNat_word]
  simp

theorem toNat_indexed (base : Addr) (i : Byte) : (indexed base i).addr.toNat = (base.toNat + i.toNat) % 65536 := by
  have hi := i.isLt
  rw [indexed, BitVec.toNat_add, BitVec.toNat_setWidth, Nat.mod_eq_of_lt (a := i.toNat) (by omega)]

/-- The pointer in page zero, in integers: its high byte is at the next address of page zero (20_memory.md R96). -/
theorem toNat_read16ZP (z : Byte) (s : State) :
    (read16ZP z s).1.toNat = (Memory.get s.ram z.toNat).toNat + 256 * (Memory.get s.ram ((z.toNat + 1) % 256)).toNat := by
  have hz : (z + 1).toNat = (z.toNat + 1) % 256 := toNat_add_byte z 1
  rw [read16ZP_eq, toNat_word, hz]
  omega

/-- Settles O16: each mode by its equation; the indirect ones read their pointer from page zero. -/
theorem effectiveAddresses : Obligations.EffectiveAddresses := by
  intro s x y zp pointer
  have hpointer : ∀ (z : Byte) (k : Nat), z.toNat = k % 256 → (read16ZP z s).1.toNat = pointer k := by
    intro z k hz
    have hnext : (k % 256 + 1) % 256 = (k + 1) % 256 := by omega
    rw [toNat_read16ZP, hz, hnext]
  refine ⟨fun m => effAddr_state m s, fun b => ⟨toNat_zeroPage b, rfl⟩, fun b => ⟨?zeropageX, rfl⟩,
    fun b => ⟨?zeropageY, rfl⟩, fun w => ⟨rfl, rfl⟩, fun w => ⟨toNat_indexed w _, ?absoluteX⟩,
    fun w => ⟨toNat_indexed w _, ?absoluteY⟩, fun b => ⟨?indexIndirect, rfl⟩, fun b => ?indirectIndex⟩
  case zeropageX => exact (toNat_zeroPage _).trans (toNat_add_byte b s.cpu.x)
  case zeropageY => exact (toNat_zeroPage _).trans (toNat_add_byte b s.cpu.y)
  case absoluteX => simp only [effAddr, indexed_crossed, decide_eq_true_eq]; rfl
  case absoluteY => simp only [effAddr, indexed_crossed, decide_eq_true_eq]; rfl
  case indexIndirect => exact hpointer _ _ (toNat_add_byte b s.cpu.x)
  case indirectIndex =>
    have hb : (read16ZP b s).1.toNat = pointer b.toNat := hpointer b _ (Nat.mod_eq_of_lt b.isLt).symm
    simp only [effAddr, toNat_indexed, indexed_crossed, decide_eq_true_eq, hb]
    exact ⟨rfl, Iff.rfl⟩

/-! ## The routing table by address -/

/-- Where an address goes (20_memory.md R81). -/
inductive RouteCase (c : Cartridge) (a : Addr) : Prop where
  | ram (h : a.toNat < 0x2000) (hr : route c a = .ram (a.toNat % 0x800)) : RouteCase c a
  | port (h : 0x2000 ≤ a.toNat) (h' : a.toNat < 0x4000) (hr : route c a = .port (portOf a)) : RouteCase c a
  | dmaTrigger (h : a = 0x4014) (hr : route c a = .dmaTrigger) : RouteCase c a
  | collaborator (h : 0x4000 ≤ a.toNat) (h' : a.toNat < 0x4018) (hne : a.toNat ≠ 0x4014)
      (hr : route c a = .collaborator) : RouteCase c a
  | openBus (h : 0x4018 ≤ a.toNat) (h' : a.toNat < 0x8000) (hr : route c a = .openBus) : RouteCase c a
  | rom (h : 0x8000 ≤ a.toNat) (hr : route c a = .rom (c.romIndex a)) : RouteCase c a

theorem routeCase (c : Cartridge) (a : Addr) : RouteCase c a := by
  by_cases hram : a.toNat < 0x2000
  · exact .ram hram (route_ram hram)
  by_cases hport : a.toNat < 0x4000
  · exact .port (by omega) hport (route_port (by omega) hport)
  by_cases hdma : a.toNat = 0x4014
  · exact .dmaTrigger (toNat_eq_dmaTrigger.mp hdma) (route_dma_iff.mpr hdma)
  by_cases hcol : a.toNat < 0x4018
  · exact .collaborator (by omega) hcol hdma (by simp [route, hram, hport, hdma, hcol])
  by_cases hopen : a.toNat < 0x8000
  · exact .openBus (by omega) hopen (by simp [route, hram, hport, hdma, hcol, hopen])
  · exact .rom (by omega) (route_rom (by omega))

/-! ## The frame of a read -/

/-- What a read leaves of the picture unit: all but what a port read touches (46_ppu_ports.md R330, R336, R341, R348). -/
theorem memRead_ppu (a : Addr) (s : State) :
    ∃ v w vb rb la, (memRead a s).2.ppu = { s.ppu with v := v, w := w, vblank := vb, readBuffer := rb, latch := la } := by
  rcases memRead_state a s with h | ⟨p, h⟩ | h <;> rw [h]
  · exact ⟨s.ppu.v, s.ppu.w, s.ppu.vblank, s.ppu.readBuffer, s.ppu.latch, rfl⟩
  · exact portRead_keeps _ p s.ppu
  · exact ⟨s.ppu.v, s.ppu.w, s.ppu.vblank, s.ppu.readBuffer, s.ppu.latch, rfl⟩

theorem memRead_sameBytes (a : Addr) (s : State) : Spec.SameBytes s (memRead a s).2 := by
  obtain ⟨v, w, vb, rb, la, hppu⟩ := memRead_ppu a s
  refine ⟨peek_congr (memRead_ram a s) (memRead_cart a s), fun b => ?_, fun k => ?_⟩
  · rw [memRead_cart, hppu]
    rfl
  · rw [hppu]
    rfl

/-- What a read leaves, but for the registers and the count of a step: every byte, the machine's other fields, and of
the picture unit all that no port read touches. -/
structure ReadFrame (s t : State) : Prop where
  bytes : Spec.SameBytes s t
  ram : t.ram = s.ram
  cart : t.cart = s.cart
  config : t.config = s.config
  extWrites : t.extWrites = s.extWrites
  dotDebt : t.dotDebt = s.dotDebt
  dmaCycles : t.dmaCycles = s.dmaCycles
  irqLine : t.irqLine = s.irqLine
  published : t.published = s.published
  ppu : ∃ v w vb rb la, t.ppu = { s.ppu with v := v, w := w, vblank := vb, readBuffer := rb, latch := la }

theorem ReadFrame.refl (s : State) : ReadFrame s s where
  bytes := ⟨fun _ => rfl, fun _ => rfl, fun _ => rfl⟩
  ram := rfl
  cart := rfl
  config := rfl
  extWrites := rfl
  dotDebt := rfl
  dmaCycles := rfl
  irqLine := rfl
  published := rfl
  ppu := ⟨s.ppu.v, s.ppu.w, s.ppu.vblank, s.ppu.readBuffer, s.ppu.latch, rfl⟩

theorem memRead_readFrame (a : Addr) (s : State) : ReadFrame s (memRead a s).2 := by
  obtain ⟨-, ram, cart, config, debt, dma, -, irq, ext, pub⟩ := memRead_keeps a s
  exact ⟨memRead_sameBytes a s, ram, cart, config, ext, debt, dma, irq, pub, memRead_ppu a s⟩

theorem operand_readFrame (src : Source) (s : State) : ReadFrame s (Spec.operand src s).2.2 := by
  cases src with
  | immediate b => exact .refl s
  | memory m => exact memRead_readFrame _ s

/-- The operand's read changes nothing where it is immediate or stands in RAM or ROM. -/
theorem operand_state_of_peek {src : Source} {s : State}
    (h : ∀ m, src = .memory m → (peek s (effAddr m s).1.addr).isSome = true) : (Spec.operand src s).2.2 = s := by
  cases src with
  | immediate b => rfl
  | memory m =>
    obtain ⟨b, hb⟩ := Option.isSome_iff_exists.mp (h m rfl)
    exact congrArg Prod.snd (memRead_of_peek hb)

theorem readRegisters_keeps (k : Mnemonic) (m : Byte) (q : Cpu) :
    (readRegisters k m q).s = q.s ∧ (readRegisters k m q).pc = q.pc ∧
    (readRegisters k m q).nmiPending = q.nmiPending ∧ (readRegisters k m q).halted = q.halted ∧
    (readRegisters k m q).p.b = q.p.b ∧ (readRegisters k m q).p.d = q.p.d ∧ (readRegisters k m q).p.i = q.p.i := by
  cases k <;> exact ⟨rfl, rfl, rfl, rfl, rfl, rfl, rfl⟩

/-- Settles O23: the instruction leaves the state after the operand's read but for the registers, of which it writes
`A`, `X`, `Y` and the flags `N`, `V`, `Z`, `C`. -/
theorem readingInstructionsFrame : Obligations.ReadingInstructionsFrame := by
  intro k op i src c s t hrow ht
  rw [exec_readRow hrow] at ht
  cases ht
  obtain ⟨hs, hpc, hnmi, hhalt, hb, hd, hi⟩ := readRegisters_keeps k (Spec.operand src s).1 s.cpu
  obtain ⟨bytes, ram, cart, config, ext, debt, dma, irq, pub, v, w, vb, rb, la, hppu⟩ := operand_readFrame src s
  refine ⟨bytes, ram, cart, config, ext, debt, dma, irq, pub, hs, hpc, hnmi, hhalt, hb, hd, hi, ?ppu⟩
  case ppu =>
    have hkept : (Spec.readResult src c (readRegisters k) s).ppu = (Spec.operand src s).2.2.ppu := rfl
    rw [hkept, hppu]
    refine ⟨rfl, rfl, rfl, rfl, rfl, rfl, rfl, rfl, rfl, rfl, fun hpeek => ?_⟩
    have hstate := operand_state_of_peek hpeek
    rw [← hppu]
    exact ⟨congrArg State.ppu hstate, (congrArg State.draws hstate :)⟩

/-! ## The frame of a write -/

theorem portOf_ne_data {a : Addr} (h : a.toNat % 8 ≠ 7) : portOf a ≠ .data := by
  have hmod : a.toNat % 8 = 0 ∨ a.toNat % 8 = 1 ∨ a.toNat % 8 = 2 ∨ a.toNat % 8 = 3 ∨ a.toNat % 8 = 4 ∨
      a.toNat % 8 = 5 ∨ a.toNat % 8 = 6 := by omega
  rcases hmod with h | h | h | h | h | h | h <;> simp [portOf, h]

theorem portOf_ne_oamData {a : Addr} (h : a.toNat % 8 ≠ 4) : portOf a ≠ .oamData := by
  unfold portOf
  split
  case h_5 => omega
  all_goals nofun

/-- Only the data port writes to the video space (46_ppu_ports.md R347). -/
theorem portWrite_vramRead {p : Port} (h : p ≠ .data) (mir : Mirroring) (d : Byte) (u : Ppu) (b : Nat) :
    vramRead mir (portWrite mir p d u) b = vramRead mir u b := by
  cases p
  case data => exact absurd rfl h
  case scroll =>
    simp only [portWrite, writeScroll]
    split <;> rfl
  case vramAddr =>
    simp only [portWrite, writeVramAddr]
    split <;> rfl
  all_goals rfl

/-- Only the OAM data port writes to OAM (46_ppu_ports.md R340). -/
theorem portWrite_oam {p : Port} (h : p ≠ .oamData) (mir : Mirroring) (d : Byte) (u : Ppu) :
    (portWrite mir p d u).oam = u.oam := by
  cases p
  case oamData => exact absurd rfl h
  case scroll =>
    simp only [portWrite, writeScroll]
    split <;> rfl
  case vramAddr =>
    simp only [portWrite, writeVramAddr]
    split <;> rfl
  case data =>
    obtain ⟨pt, nt, pal, hw⟩ := vramWrite_state mir { u with latch := d } (Ppu.dataAddr { u with latch := d }) d
    simp only [portWrite, writeData, Ppu.incV, hw]
  all_goals rfl

/-- What an access of `a` by a storing or modifying instruction leaves of the machine, but for the registers and the
count of a step (40_addressing.md section 3, 20_memory.md section 1). -/
structure WriteFrame (a : Addr) (s t : State) : Prop where
  bytes : ∀ b, ¬ Spec.SameCell a b → peek t b = peek s b
  memory : a.toNat < 0x2000 ∨ 0x8000 ≤ a.toNat → t.ppu = s.ppu ∧ t.extWrites = s.extWrites ∧ t.draws = s.draws
  video : ¬(0x2000 ≤ a.toNat ∧ a.toNat < 0x4000 ∧ a.toNat % 8 = 7) →
    ∀ b, vramRead t.cart.mirroring t.ppu b = vramRead s.cart.mirroring s.ppu b
  oam : ¬(0x2000 ≤ a.toNat ∧ a.toNat < 0x4000 ∧ a.toNat % 8 = 4) ∧ a ≠ 0x4014 → ∀ b, t.ppu.oamByte b = s.ppu.oamByte b
  extWrites : ¬(0x4000 ≤ a.toNat ∧ a.toNat < 0x4018) → t.extWrites = s.extWrites
  dmaCycles : a ≠ 0x4014 → t.dmaCycles = s.dmaCycles
  cart : t.cart = s.cart
  config : t.config = s.config
  dotDebt : t.dotDebt = s.dotDebt
  irqLine : t.irqLine = s.irqLine
  published : t.published = s.published
  scanline : t.ppu.scanline = s.ppu.scanline
  dot : t.ppu.dot = s.ppu.dot
  frame : t.ppu.frame = s.ppu.frame
  sprite0Hit : t.ppu.sprite0Hit = s.ppu.sprite0Hit
  spriteOverflow : t.ppu.spriteOverflow = s.ppu.spriteOverflow

theorem WriteFrame.refl (a : Addr) (s : State) : WriteFrame a s s where
  bytes _ _ := rfl
  memory _ := ⟨rfl, rfl, rfl⟩
  video _ _ := rfl
  oam _ _ := rfl
  extWrites _ := rfl
  dmaCycles _ := rfl
  cart := rfl
  config := rfl
  dotDebt := rfl
  irqLine := rfl
  published := rfl
  scanline := rfl
  dot := rfl
  frame := rfl
  sprite0Hit := rfl
  spriteOverflow := rfl

theorem WriteFrame.trans {a : Addr} {s t u : State} (h : WriteFrame a s t) (h' : WriteFrame a t u) :
    WriteFrame a s u where
  bytes b hb := (h'.bytes b hb).trans (h.bytes b hb)
  memory ha := by
    obtain ⟨ppu, ext, draws⟩ := h.memory ha
    obtain ⟨ppu', ext', draws'⟩ := h'.memory ha
    exact ⟨ppu'.trans ppu, ext'.trans ext, draws'.trans draws⟩
  video ha b := (h'.video ha b).trans (h.video ha b)
  oam ha b := (h'.oam ha b).trans (h.oam ha b)
  extWrites ha := (h'.extWrites ha).trans (h.extWrites ha)
  dmaCycles ha := (h'.dmaCycles ha).trans (h.dmaCycles ha)
  cart := h'.cart.trans h.cart
  config := h'.config.trans h.config
  dotDebt := h'.dotDebt.trans h.dotDebt
  irqLine := h'.irqLine.trans h.irqLine
  published := h'.published.trans h.published
  scanline := h'.scanline.trans h.scanline
  dot := h'.dot.trans h.dot
  frame := h'.frame.trans h.frame
  sprite0Hit := h'.sprite0Hit.trans h.sprite0Hit
  spriteOverflow := h'.spriteOverflow.trans h.spriteOverflow

/-- A read outside the port window and the free values changes nothing. -/
theorem memRead_state_of_memory {a : Addr} (h : a.toNat < 0x2000 ∨ 0x8000 ≤ a.toNat) (s : State) :
    (memRead a s).2 = s := by
  rcases h with h | h
  · rw [memRead_of_route_ram (route_ram h)]
  · rw [memRead_of_route_rom (route_rom h)]

theorem memRead_writeFrame (a : Addr) (s : State) : WriteFrame a s (memRead a s).2 := by
  obtain ⟨bytes, ram, cart, config, ext, debt, dma, irq, pub, v, w, vb, rb, la, hppu⟩ := memRead_readFrame a s
  obtain ⟨hpeek, hvideo, hoam⟩ := bytes
  refine ⟨fun b _ => hpeek b, fun h => ?memory, fun _ => hvideo, fun _ => hoam, fun _ => ext, fun _ => dma, cart, config,
    debt, irq, pub, ?_, ?_, ?_, ?_, ?_⟩
  case memory =>
    rw [memRead_state_of_memory h]
    exact ⟨rfl, rfl, rfl⟩
  all_goals rw [hppu]

/-- A store to RAM changes the bytes of one cell. -/
theorem peek_set_ram {a b : Addr} (ha : a.toNat < 0x2000) (hb : ¬ Spec.SameCell a b) (v : Byte) (s : State) :
    peek { s with ram := Memory.set s.ram (a.toNat % 0x800) v } b = peek s b := by
  by_cases hlt : b.toNat < 0x2000
  · have hne : b.toNat % 0x800 ≠ a.toNat % 0x800 := fun h => hb ⟨ha, hlt, h.symm⟩
    rw [peek_below_ports hlt, peek_below_ports hlt, Memory.get_set_other s.ram v hne]
  · exact peek_eq_of_cart_eq (Nat.le_of_not_lt hlt) rfl

/-- The copy to OAM changes OAM and the DMA cycles (46_ppu_ports.md R352). -/
theorem copy_writeFrame {a : Addr} (ha : a = 0x4014) (mem : Memory) (n : Nat) (s : State) :
    WriteFrame a s { s with ppu := { s.ppu with oam := mem }, dmaCycles := n } where
  bytes b _ := peek_congr rfl rfl b
  memory h := by
    have hn : a.toNat = 0x4014 := toNat_eq_dmaTrigger.mpr ha
    omega
  video _ _ := rfl
  oam h := absurd ha h.2
  extWrites _ := rfl
  dmaCycles h := absurd ha h
  cart := rfl
  config := rfl
  dotDebt := rfl
  irqLine := rfl
  published := rfl
  scanline := rfl
  dot := rfl
  frame := rfl
  sprite0Hit := rfl
  spriteOverflow := rfl

/-- A write changes what its row of the routing table names (20_memory.md R81, R83 to R90). -/
theorem stored_writeFrame (a : Addr) (v : Byte) (s : State) : WriteFrame a s (Spec.stored a v s) := by
  cases routeCase s.cart a with
  | ram h hr =>
    have hne : a ≠ 0x4014 := fun ha => by rw [ha] at h; exact absurd h (by decide)
    rw [Spec.stored, if_neg hne, busStore_of_route_ram v hr]
    exact { WriteFrame.refl a s with bytes := fun b hb => peek_set_ram h hb v s }
  | port h h' hr =>
    have hne : a ≠ 0x4014 := fun ha => by rw [ha] at h'; exact absurd h' (by decide)
    obtain ⟨-, hit, ovf, -, line, dot, frame, -⟩ := portWrite_keeps s.cart.mirroring (portOf a) v s.ppu
    rw [Spec.stored, if_neg hne, busStore_of_route_port v hr]
    exact { WriteFrame.refl a s with
      memory := by omega
      video := fun ha => portWrite_vramRead (portOf_ne_data fun hmod => ha ⟨h, h', hmod⟩) _ v s.ppu
      oam := fun ha b =>
        congrArg (Memory.get · b) (portWrite_oam (portOf_ne_oamData fun hmod => ha.1 ⟨h, h', hmod⟩) _ v s.ppu)
      scanline := line, dot := dot, frame := frame, sprite0Hit := hit, spriteOverflow := ovf }
  | dmaTrigger h hr =>
    rw [Spec.stored, if_pos h]
    exact copy_writeFrame h _ _ s
  | collaborator h h' hne hr =>
    rw [Spec.stored, if_neg (mt toNat_eq_dmaTrigger.mpr hne), busStore, hr]
    exact { WriteFrame.refl a s with
      memory := by omega
      extWrites := fun ha => absurd ⟨h, h'⟩ ha
      bytes := fun _ _ => rfl }
  | openBus h h' hr =>
    have hne : a ≠ 0x4014 := fun ha => by rw [ha] at h; exact absurd h (by decide)
    rw [Spec.stored, if_neg hne, busStore, hr]
    exact .refl a s
  | rom h hr =>
    have hne : a ≠ 0x4014 := fun ha => by rw [ha] at h; exact absurd h (by decide)
    rw [Spec.stored, if_neg hne, busStore_of_route_rom v hr]
    exact .refl a s

theorem WriteFrame.setCpu {a : Addr} {s t : State} (h : WriteFrame a s t) (c : Cpu) (n : Nat) :
    WriteFrame a s { t with cpu := c, cycles := n } := by
  obtain ⟨bytes, memory, video, oam, ext, dma, cart, config, debt, irq, pub, line, dot, frame, hit, ovf⟩ := h
  exact ⟨bytes, memory, video, oam, ext, dma, cart, config, debt, irq, pub, line, dot, frame, hit, ovf⟩

/-- The registers and flags a modifying instruction does not write are the same in both. -/
def SameButResult (q q' : Cpu) : Prop :=
  q'.x = q.x ∧ q'.y = q.y ∧ q'.s = q.s ∧ q'.pc = q.pc ∧ q'.nmiPending = q.nmiPending ∧ q'.halted = q.halted ∧
    q'.p.b = q.p.b ∧ q'.p.d = q.p.d ∧ q'.p.i = q.p.i

theorem firstEffect_keeps (k : Spec.Mnemonic) (m : Byte) (q : Cpu) : SameButResult q (firstEffect k m q).2 := by
  cases k <;> exact ⟨rfl, rfl, rfl, rfl, rfl, rfl, rfl, rfl, rfl⟩

theorem secondEffect_keeps (k : Spec.Mnemonic) (r : Byte) (q : Cpu) : SameButResult q (secondEffect k r q) := by
  cases k <;> exact ⟨rfl, rfl, rfl, rfl, rfl, rfl, rfl, rfl, rfl⟩

theorem modifyEffect_keeps (k : Spec.Mnemonic) (m : Byte) (q : Cpu) :
    SameButResult q (Spec.andThen (firstEffect k) (secondEffect k) m q).2 := by
  obtain ⟨x, y, sp, pc, nmi, halted, pb, pd, pi⟩ := firstEffect_keeps k m q
  obtain ⟨x', y', sp', pc', nmi', halted', pb', pd', pi'⟩ :=
    secondEffect_keeps k (firstEffect k m q).1 (firstEffect k m q).2
  exact ⟨x'.trans x, y'.trans y, sp'.trans sp, pc'.trans pc, nmi'.trans nmi, halted'.trans halted, pb'.trans pb,
    pd'.trans pd, pi'.trans pi⟩

theorem modifyRow_not_store {k : Spec.Mnemonic} {op : Byte} {i : Instr} {m : AddrMode} {n : Nat}
    (h : Spec.ModifyRow k op i m n) : ¬(k = .sta ∨ k = .stx ∨ k = .sty ∨ k = .sax) := by
  cases h <;> decide

/-- Settles O28: a pure store is one write; a modifying instruction is one read and one write of the same address. -/
theorem storingInstructionsFrame : Obligations.StoringInstructionsFrame := by
  intro k op i m n s t h ht a
  suffices hw : WriteFrame a s t ∧ SameButResult s.cpu t.cpu ∧
      (k = .sta ∨ k = .stx ∨ k = .sty ∨ k = .sax → t.cpu = s.cpu) by
    obtain ⟨f, ⟨x, y, sp, pc, nmi, halted, pb, pd, pi⟩, pure⟩ := hw
    exact ⟨f.bytes, f.memory, f.video, f.oam, f.extWrites, f.dmaCycles, f.cart, f.config, f.dotDebt, f.irqLine,
      f.published, x, y, sp, pc, nmi, halted, pb, pd, pi, f.scanline, f.dot, f.frame, f.sprite0Hit, f.spriteOverflow,
      pure⟩
  rcases h with h | h
  · have hcpu : t.cpu = s.cpu := by rw [next_of_stores (stores_writeRow h s) ht]; exact stored_cpu _ _ s
    refine ⟨?_, ?_, fun _ => hcpu⟩
    · rw [next_of_stores (stores_writeRow h s) ht]
      exact (stored_writeFrame a _ s).setCpu _ n
    · rw [hcpu]
      exact ⟨rfl, rfl, rfl, rfl, rfl, rfl, rfl, rfl, rfl⟩
  · refine ⟨?_, ?_, fun hk => absurd hk (modifyRow_not_store h)⟩
    · rw [next_of_modifies (modifies_modifyRow h s) ht]
      exact ((memRead_writeFrame a s).trans (stored_writeFrame a _ _)).setCpu _ n
    · rw [next_of_modifies (modifies_modifyRow h s) ht]
      exact modifyEffect_keeps k _ s.cpu

end Sys2Proof.Machine
end


section
/-! Transfers, the windows of the bus, the stack, jumps to subroutines, branches, and interrupt entry and return
(20_memory.md section 1, 41_load_store_transfer.md, 44_stack_control_flags.md, 60_exceptions.md section 4). -/

namespace Sys2Proof.Machine

/-- Settles O29: five transfers are loads of a register's value, TXS is the write of `S` alone. -/
theorem transfersMove : Obligations.TransfersMove := by
  refine ⟨⟨rfl, rfl, rfl, rfl, rfl, rfl⟩, fun s => ⟨?tax, ?tay, ?txa, ?tya, ?tsx, rfl⟩⟩
  case tax => rw [exec_impliedRow .tax, transferAX, loadX_eq]; rfl
  case tay => rw [exec_impliedRow .tay, transferAY, loadY_eq]; rfl
  case txa => rw [exec_impliedRow .txa, transferXA, loadA_eq]; rfl
  case tya => rw [exec_impliedRow .tya, transferYA, loadA_eq]; rfl
  case tsx => rw [exec_impliedRow .tsx, transferSX, loadX_eq]; rfl

/-! ## The cartridge, the collaborator window and open bus -/

theorem memRead_rom_of_blocks {a : Addr} {s : State} (h : 0x8000 ≤ a.toNat) {i : Nat} (hi : s.cart.romIndex a = i) :
    memRead a s = (Memory.get s.cart.prg i, s) := by
  rw [memRead_of_route_rom (route_rom h), hi]

theorem memRead_of_route_openBus {a : Addr} {s : State} (h : route s.cart a = .openBus ∨ route s.cart a = .dmaTrigger) :
    memRead a s = (Config.openBusRead s.draws, { s with draws := s.draws + 1 }) := by
  rcases h with h | h <;> rw [memRead, h]

/-- A write from 0x4018 on changes nothing (20_memory.md R90 and the rows above it). -/
theorem memWrite_above_windows {a : Addr} (h : 0x4018 ≤ a.toNat) (v : Byte) (s : State) :
    memWrite a v s = .next s := by
  rw [memWrite_of_ne v (by omega)]
  cases routeCase s.cart a with
  | openBus _ _ hr => rw [busStore, hr]
  | rom _ hr => rw [busStore_of_route_rom v hr]
  | ram h' _ => omega
  | port _ h' _ => omega
  | dmaTrigger h' _ => rw [h'] at h; exact absurd h (by decide)
  | collaborator _ h' _ _ => omega

theorem route_collaborator {a : Addr} (c : Cartridge) (h : 0x4000 ≤ a.toNat) (h' : a.toNat < 0x4018) (hne : a ≠ 0x4014) :
    route c a = .collaborator := by
  cases routeCase c a with
  | collaborator _ _ _ hr => exact hr
  | dmaTrigger ha _ => exact absurd ha hne
  | ram h₁ _ | port _ h₁ _ | openBus h₁ _ _ | rom h₁ _ => omega

theorem route_openBus {a : Addr} (c : Cartridge) (h : 0x4018 ≤ a.toNat) (h' : a.toNat < 0x8000) :
    route c a = .openBus := by
  cases routeCase c a with
  | openBus _ _ hr => exact hr
  | dmaTrigger ha _ => rw [ha] at h; exact absurd h (by decide)
  | ram h₁ _ | port _ h₁ _ | collaborator _ h₁ _ _ | rom h₁ _ => omega

/-- Settles O43: one row of the routing table each. -/
theorem romAndWindows : Obligations.RomAndWindows := by
  refine fun a v s => ⟨fun h hone => ?one, fun h htwo => ?two, fun h => memWrite_above_windows h v s, fun h => ?free,
    fun h h' hne => ?window⟩
  case one => exact memRead_rom_of_blocks h (by rw [Cartridge.romIndex, Cartridge.prgLen, hone])
  case two =>
    have ha := a.isLt
    have hlen : s.cart.prgLen = 0x8000 := by rw [Cartridge.prgLen, htwo]
    exact memRead_rom_of_blocks h (by rw [Cartridge.romIndex, hlen, Nat.mod_eq_of_lt (by omega)])
  case free =>
    apply memRead_of_route_openBus
    rcases h with ⟨h, h'⟩ | rfl
    · exact .inl (route_openBus s.cart h h')
    · exact .inr rfl
  case window =>
    have hroute := route_collaborator s.cart h h' hne
    exact ⟨by rw [memWrite_of_ne v (mt toNat_eq_dmaTrigger.mp hne), busStore, hroute], by rw [memRead, hroute]⟩

/-! ## The bytes of the stack -/

/-- The stack is page 1 of RAM (10_state.md R23). -/
theorem stackByte_eq (s : State) (p : Byte) : Spec.stackByte s p = Memory.get s.ram (256 + p.toNat) := by
  have hp := p.isLt
  have hlt : (Spec.stack p).toNat < 0x2000 := by rw [toNat_spec_stack]; omega
  rw [Spec.stackByte, memRead_below_ports hlt, toNat_spec_stack, Nat.mod_eq_of_lt (by omega)]

theorem pull_eq_stackByte (s : State) : pull s = (Spec.stackByte s (s.cpu.s + 1), s.setS (s.cpu.s + 1)) := by
  rw [pull_eq, stackByte_eq]

theorem byte_add_one_add_one (p : Byte) : p + 1 + 1 = p + 2 := BitVec.add_assoc p 1 1

theorem byte_add_two_add_one (p : Byte) : p + 1 + 1 + 1 = p + 3 := by
  rw [BitVec.add_assoc, BitVec.add_assoc]
  rfl

theorem byte_sub_one_sub_one (p : Byte) : p - 1 - 1 = p - 2 := by
  rw [BitVec.sub_sub]
  rfl

theorem byte_sub_one_sub_one_sub_one (p : Byte) : p - 1 - 1 - 1 = p - 3 := by
  rw [BitVec.sub_sub, BitVec.sub_sub]
  rfl

theorem byte_sub_two_add_one (p : Byte) : p - 2 + 1 = p - 1 := by bv_omega

/-- The return address of RTS, in integers (44_stack_control_flags.md R267). -/
theorem word_add_one (h l : Byte) : word h l + 1 = BitVec.ofNat 16 (l.toNat + 256 * h.toNat + 1) := by
  apply BitVec.eq_of_toNat_eq
  rw [BitVec.toNat_add, toNat_word, BitVec.toNat_ofNat]
  simp
  omega

/-- RTS in one step: the two bytes of the return address, low byte first (44_stack_control_flags.md R267). -/
theorem returnSub_eq (s : State) :
    returnSub s = { s with cpu := { s.cpu with
      s := s.cpu.s + 1 + 1,
      pc := word (Spec.stackByte s (s.cpu.s + 1 + 1)) (Spec.stackByte s (s.cpu.s + 1)) + 1 } } := by
  unfold returnSub
  simp only [pull_eq, stackByte_eq]
  rfl

/-- Settles O31: each instruction is its number of pulls. -/
theorem pullsPull : Obligations.PullsPull := by
  refine ⟨rfl, rfl, rfl, rfl, fun s => ⟨?pla, ?plp, ?rti, ?rts⟩⟩
  case pla => rw [exec_impliedRow .pla, pullA, pull_eq_stackByte, loadA_eq]; rfl
  case plp => rw [exec_impliedRow .plp, pullP, pull_eq_stackByte]; rfl
  case rti =>
    rw [exec_impliedRow .rti, leave_eq, byte_add_two_add_one, byte_add_one_add_one, stackByte_eq, stackByte_eq,
      stackByte_eq]
    rfl
  case rts =>
    rw [exec_impliedRow .rts, returnSub_eq, word_add_one, byte_add_one_add_one]
    rfl

/-! ## Subroutines -/

theorem push_wf {s : State} (hwf : Memory.wf 2048 s.ram = true) (v : Byte) :
    Memory.wf 2048 (push v s).ram = true := by
  have hs := s.cpu.s.isLt
  rw [push_eq]
  exact Memory.wf_set hwf (by omega) v

/-- What a push leaves in a cell of the stack. -/
theorem stackByte_push {s : State} (hwf : Memory.wf 2048 s.ram = true) (v p : Byte) :
    Spec.stackByte (push v s) p = if p = s.cpu.s then v else Spec.stackByte s p := by
  rw [stackByte_eq, stackByte_eq, push_eq, Memory.get_set hwf]
  simp only [BitVec.toNat_eq, Nat.add_left_cancel_iff]

theorem push_cart (v : Byte) (s : State) : (push v s).cart = s.cart := by rw [push_eq]

/-- JSR in one step, but for RAM (44_stack_control_flags.md R266). -/
theorem callSub_eq (w : Addr) (s : State) :
    callSub w s = { s with ram := (push (lo8 (s.cpu.pc - 1)) (push (hi8 (s.cpu.pc - 1)) s)).ram,
                           cpu := { s.cpu with s := s.cpu.s - 2, pc := w } } := by
  rw [← byte_sub_one_sub_one]
  simp only [callSub, push_eq]
  rfl

/-- Settles O33: JSR is two pushes and a jump. -/
theorem jsrCalls : Obligations.JsrCalls := by
  refine ⟨fun w => rfl, fun w s hwf => ?_⟩
  have hnext : exec (.jsr w) s = .next ((callSub w s).charge 6) := exec_impliedRow (.jsr w) s
  rw [callSub_eq] at hnext
  exact ⟨_, push (hi8 (s.cpu.pc - 1)) s, hnext, bytesAfterStore_of_ram_eq_push hwf rfl (push_cart _ s),
    bytesAfterStore_of_ram_eq_push (s := push (hi8 (s.cpu.pc - 1)) s) (push_wf hwf _) rfl (push_cart _ s).symm, rfl⟩

theorem stackByte_congr {s t : State} (h : t.ram = s.ram) (p : Byte) : Spec.stackByte t p = Spec.stackByte s p := by
  rw [stackByte_eq, stackByte_eq, h]

/-- The cells two pushes wrote. -/
theorem stackBytes_push_push {s t : State} (hwf : Memory.wf 2048 s.ram = true) {h l : Byte}
    (hram : t.ram = (push l (push h s)).ram) :
    Spec.stackByte t s.cpu.s = h ∧ Spec.stackByte t (s.cpu.s - 1) = l := by
  have hne : s.cpu.s ≠ (push h s).cpu.s := by
    rw [push_eq]
    bv_omega
  rw [stackByte_congr hram, stackByte_congr hram, stackByte_push (push_wf hwf h), stackByte_push (push_wf hwf h),
    if_neg hne, if_pos (by rw [push_eq]), stackByte_push hwf, if_pos rfl]
  exact ⟨rfl, rfl⟩

/-- The cells three pushes wrote. -/
theorem stackBytes_push_push_push {s t : State} (hwf : Memory.wf 2048 s.ram = true) {h l p : Byte}
    (hram : t.ram = (push p (push l (push h s))).ram) :
    Spec.stackByte t s.cpu.s = h ∧ Spec.stackByte t (s.cpu.s - 1) = l ∧ Spec.stackByte t (s.cpu.s - 2) = p := by
  have hs : (push l (push h s)).cpu.s = s.cpu.s - 2 := by
    simp only [push_eq, byte_sub_one_sub_one]
  obtain ⟨hh, hl⟩ := stackBytes_push_push (s := s) (h := h) (l := l) hwf rfl
  have hcell := stackByte_push (push_wf (push_wf hwf h) l) p
  simp only [hs] at hcell
  refine ⟨?_, ?_, ?_⟩
  · rw [stackByte_congr hram, hcell, if_neg (by bv_omega), hh]
  · rw [stackByte_congr hram, hcell, if_neg (by bv_omega), hl]
  · rw [stackByte_congr hram, hcell, if_pos rfl]

/-- The address RTS pulls after JSR is the one after the last byte of the JSR. -/
theorem word_hi8_lo8_sub_add (a : Addr) : word (hi8 (a - 1)) (lo8 (a - 1)) + 1 = a := by
  rw [word_hi8_lo8, BitVec.sub_add_cancel]

/-- Settles O34: the pulls read the bytes the pushes wrote. -/
theorem stackDiscipline : Obligations.StackDiscipline := by
  refine fun s hwf => ⟨fun p => ?php, fun w => ?jsr⟩
  case php =>
    refine ⟨_, _, exec_impliedRow .php s, exec_impliedRow .plp _, ?_⟩
    rw [pullP, pull_of_push (t := (State.charge (pushP s) 3).setP p) hwf rfl rfl, Flags.unpack_pack, pushP, push_eq]
    rfl
  case jsr =>
    refine ⟨_, _, exec_impliedRow (.jsr w) s, exec_impliedRow .rts _, ?_⟩
    obtain ⟨hh, hl⟩ := stackBytes_push_push (t := (callSub w s).charge 6) hwf rfl
    have hs₁ : ((callSub w s).charge 6).cpu.s + 1 = s.cpu.s - 1 := by
      rw [callSub_eq]
      exact byte_sub_two_add_one s.cpu.s
    have hs₂ : s.cpu.s - 1 + 1 = s.cpu.s := BitVec.sub_add_cancel s.cpu.s 1
    rw [returnSub_eq, hs₁, hs₂, hh, hl, word_hi8_lo8_sub_add, callSub_eq]
    rfl

/-! ## Branches -/

/-- The target of a branch, in integers (40_addressing.md R176). -/
theorem branchTarget_eq (pc : Addr) (d : Byte) : branchTarget pc d = BitVec.ofInt 16 (pc.toNat + d.toInt) := by
  rw [BitVec.ofInt_add, BitVec.ofInt_natCast, BitVec.ofNat_toNat, BitVec.setWidth_eq]
  rfl

/-- Settles O35: the class of the branches, with its target and its page in integers. -/
theorem branchesBranch : Obligations.BranchesBranch := by
  intro k op d i s h target
  refine ⟨encode_branchRow h, fun hc => ?_, fun hc => ?_⟩
  · rw [exec_branchRow h, branchClass, if_neg (by simp [hc])]
    rfl
  · have hpage : 3 + (pageCrossed s.cpu.pc target).toNat =
        if s.cpu.pc.toNat / 256 = target.toNat / 256 then 3 else 4 := by
      simp only [pageCrossed, ne_eq, BitVec.toNat_eq, toNat_hi8]
      split <;> simp [*]
    rw [exec_branchRow h, branchClass, if_pos hc, branchTarget_eq, ← hpage]
    rfl

/-! ## Interrupt entry and return -/

/-- The vectors of an entry stand in ROM. -/
theorem vector_bounds {vec : Addr} (h : vec = 0xFFFA ∨ vec = 0xFFFE) : 0x8000 ≤ vec.toNat ∧ vec.toNat < 0xFFFF := by
  rcases h with rfl | rfl <;> decide

theorem enter_ram {vec : Addr} (h : vec = 0xFFFA ∨ vec = 0xFFFE) (b : Bool) (s : State) :
    (enter vec b s).ram = (push (s.cpu.p.pack b) (push (lo8 s.cpu.pc) (push (hi8 s.cpu.pc) s))).ram := by
  obtain ⟨hlo, hhi⟩ := vector_bounds h
  simp only [enter_eq vec b s hlo hhi, push_eq]

/-- An entry but for RAM. -/
theorem enter_eq_vector {vec : Addr} (h : vec = 0xFFFA ∨ vec = 0xFFFE) (b : Bool) (s : State) :
    enter vec b s = { s with
      ram := (enter vec b s).ram,
      cpu := { s.cpu with s := s.cpu.s - 3, p := { s.cpu.p with b := b, i := true },
                          pc := word (memRead (vec + 1) s).1 (memRead vec s).1 } } := by
  obtain ⟨hlo, hhi⟩ := vector_bounds h
  have hnext : 0x8000 ≤ (vec + 1).toNat := by rcases h with rfl | rfl <;> decide
  rw [memRead_of_route_rom (route_rom hlo), memRead_of_route_rom (route_rom hnext), ← byte_sub_one_sub_one_sub_one,
    enter_eq vec b s hlo hhi]
  rfl

/-- Settles O39: three pushes, and the word of the vector, which stands in ROM. -/
theorem entrySequence : Obligations.EntrySequence := by
  intro vec b s hvec hwf t
  refine ⟨⟨push (hi8 s.cpu.pc) s, push (lo8 s.cpu.pc) (push (hi8 s.cpu.pc) s), ?high, ?low, ?status⟩,
    enter_eq_vector hvec b s⟩
  case high => exact bytesAfterStore_of_ram_eq_push hwf rfl (push_cart _ s)
  case low => exact bytesAfterStore_of_ram_eq_push (s := push (hi8 s.cpu.pc) s) (push_wf hwf _) rfl (push_cart _ _)
  case status =>
    have hs : (push (lo8 s.cpu.pc) (push (hi8 s.cpu.pc) s)).cpu.s = s.cpu.s - 2 := by
      simp only [push_eq, byte_sub_one_sub_one]
    have hcart : t.cart = (push (lo8 s.cpu.pc) (push (hi8 s.cpu.pc) s)).cart := by
      rw [push_cart, push_cart, show t = enter vec b s from rfl, enter_eq_vector hvec]
    rw [← hs, ← Flags.pack_eq_statusByte]
    exact bytesAfterStore_of_ram_eq_push (push_wf (push_wf hwf _) _) (enter_ram hvec b s) hcart

/-- RTI after an entry. -/
theorem leave_enter {vec : Addr} (h : vec = 0xFFFA ∨ vec = 0xFFFE) (b : Bool) {s t : State}
    (hwf : Memory.wf 2048 s.ram = true) (hcpu : t.cpu = (enter vec b s).cpu) (hram : t.ram = (enter vec b s).ram) :
    (leave t).cpu = { s.cpu with p := { s.cpu.p with b := b } } := by
  obtain ⟨hh, hl, hp⟩ := stackBytes_push_push_push hwf (hram.trans (enter_ram h b s))
  have hs : t.cpu.s = s.cpu.s - 3 := by rw [hcpu, enter_eq_vector h]
  have hs₁ : s.cpu.s - 3 + 1 = s.cpu.s - 2 := by bv_omega
  have hs₂ : s.cpu.s - 2 + 1 = s.cpu.s - 1 := byte_sub_two_add_one s.cpu.s
  have hs₃ : s.cpu.s - 1 + 1 = s.cpu.s := BitVec.sub_add_cancel s.cpu.s 1
  rw [leave_eq, ← stackByte_eq, ← stackByte_eq, ← stackByte_eq, hs, hs₁, hs₂, hs₃, hh, hl, hp, Flags.unpack_pack,
    word_hi8_lo8, hcpu, enter_eq_vector h]

/-- Settles O41: RTI pulls the three bytes the entry pushed; BRK enters with the byte after it skipped. -/
theorem returnUndoesEntry : Obligations.ReturnUndoesEntry := by
  refine fun s hwf => ⟨fun vec b hvec => ?entry, fun hmask => ?brk⟩
  case entry => exact ⟨_, exec_impliedRow .rti _, leave_enter hvec b hwf rfl rfl⟩
  case brk =>
    have hnext := exec_impliedRow .brk s
    rw [softwareInterrupt_unmasked hmask] at hnext
    exact ⟨_, _, hnext, exec_impliedRow .rti _, leave_enter (.inr rfl) true (s := s.setPc (s.cpu.pc + 1)) hwf rfl rfl⟩

end Sys2Proof.Machine
end


section
/-! The ports of the picture unit and the copy to OAM (46_ppu_ports.md). -/

namespace Sys2Proof.Machine

/-! ## Bit fields -/

theorem getLsbD_putField {n lo len : Nat} (hlen : len ≤ n) (w f : BitVec n) (i : Nat) :
    (putField w lo len f).getLsbD i =
      if lo ≤ i ∧ i < lo + len then decide (i < n) && f.getLsbD (i - lo) else w.getLsbD i := by
  have hmask (k : Nat) : (BitVec.ofNat n (2 ^ len - 1)).getLsbD k = decide (k < len) := by
    rw [BitVec.getLsbD_ofNat, Nat.testBit_two_pow_sub_one, ← Bool.decide_and]
    exact decide_eq_decide.mpr (by omega)
  simp only [putField, BitVec.getLsbD_or, BitVec.getLsbD_and, BitVec.getLsbD_not, BitVec.getLsbD_shiftLeft, hmask]
  by_cases hi : i < n
  · by_cases hlo : i < lo
    · simp [hi, hlo, show ¬ lo ≤ i by omega]
    · by_cases hhi : i < lo + len
      · simp [hi, hlo, hhi, show lo ≤ i by omega, show i - lo < len by omega]
      · simp [hi, hlo, hhi, show ¬ i - lo < len by omega]
  · simp [hi, BitVec.getLsbD_of_ge w i (by omega)]

/-- The field that was put. -/
theorem extractLsb'_putField {n lo len : Nat} (h : lo + len ≤ n) (w f : BitVec n) :
    (putField w lo len f).extractLsb' lo len = f.extractLsb' 0 len := by
  apply BitVec.eq_of_getLsbD_eq
  intro i hi
  rw [BitVec.getLsbD_extractLsb', BitVec.getLsbD_extractLsb', getLsbD_putField (by omega), if_pos (by omega),
    Nat.zero_add, Nat.add_sub_cancel_left]
  simp [show lo + i < n by omega]

/-- A field beside the one that was put. -/
theorem extractLsb'_putField_other {n lo len lo' len' : Nat} (hlen : len ≤ n) (h : lo' + len' ≤ lo ∨ lo + len ≤ lo')
    (w f : BitVec n) : (putField w lo len f).extractLsb' lo' len' = w.extractLsb' lo' len' := by
  apply BitVec.eq_of_getLsbD_eq
  intro i hi
  rw [BitVec.getLsbD_extractLsb', BitVec.getLsbD_extractLsb', getLsbD_putField hlen, if_neg (by omega)]

/-- A byte moved down and widened, cut to a field of its bits. -/
theorem extractLsb'_setWidth_shift {k len : Nat} (h : k + len ≤ 8) (d : Byte) :
    ((d >>> k).setWidth 15).extractLsb' 0 len = d.extractLsb' k len := by
  apply BitVec.eq_of_getLsbD_eq
  intro i hi
  simp [hi, show i < 15 by omega, show k + i < 15 by omega]

theorem extractLsb'_setWidth {len : Nat} (h : len ≤ 15) (d : Byte) :
    (d.setWidth 15).extractLsb' 0 len = d.extractLsb' 0 len := by
  apply BitVec.eq_of_getLsbD_eq
  intro i hi
  simp [hi, show i < 15 by omega]

/-! ## The accesses of a port -/

theorem portOf_control {a : Addr} (h : a.toNat % 8 = 0) : portOf a = .control := by rw [portOf, h]; rfl
theorem portOf_mask {a : Addr} (h : a.toNat % 8 = 1) : portOf a = .mask := by rw [portOf, h]; rfl
theorem portOf_status {a : Addr} (h : a.toNat % 8 = 2) : portOf a = .status := by rw [portOf, h]; rfl
theorem portOf_oamAddr {a : Addr} (h : a.toNat % 8 = 3) : portOf a = .oamAddr := by rw [portOf, h]; rfl
theorem portOf_oamData {a : Addr} (h : a.toNat % 8 = 4) : portOf a = .oamData := by rw [portOf, h]; rfl
theorem portOf_scroll {a : Addr} (h : a.toNat % 8 = 5) : portOf a = .scroll := by rw [portOf, h]; rfl
theorem portOf_vramAddr {a : Addr} (h : a.toNat % 8 = 6) : portOf a = .vramAddr := by rw [portOf, h]; rfl
theorem portOf_data {a : Addr} (h : a.toNat % 8 = 7) : portOf a = .data := by rw [portOf, h]; rfl

theorem memWrite_port {a : Addr} {p : Port} (hlo : 0x2000 ≤ a.toNat) (hhi : a.toNat < 0x4000) (hp : portOf a = p)
    (d : Byte) (s : State) : memWrite a d s = .next { s with ppu := portWrite s.cart.mirroring p d s.ppu } := by
  rw [memWrite_of_ne d (by omega), busStore_of_route_port d (route_port hlo hhi), hp]

theorem memRead_port {a : Addr} {p : Port} (hlo : 0x2000 ≤ a.toNat) (hhi : a.toNat < 0x4000) (hp : portOf a = p)
    (s : State) : memRead a s = ((portRead s.cart.mirroring p s.ppu).1,
      { s with ppu := (portRead s.cart.mirroring p s.ppu).2 }) := by
  rw [memRead_port_window hlo hhi, hp]

/-- The status byte, in integers (46_ppu_ports.md R336). -/
theorem statusByte_eq (u : Ppu) : u.statusByte =
    BitVec.ofNat 8 (128 * u.vblank.toNat + 64 * u.sprite0Hit.toNat + 32 * u.spriteOverflow.toNat +
      u.latch.toNat % 32) := by
  have hlatch : field u.latch 0 5 = u.latch.toNat % 32 := by
    rw [field, BitVec.extractLsb'_toNat]
    rfl
  rw [Ppu.statusByte, hlatch, Nat.mul_comm _ 128, Nat.mul_comm _ 64, Nat.mul_comm _ 32]

/-- Settles O46: the port's read and write, with the status byte in integers. -/
theorem statusPort : Obligations.StatusPort := by
  intro a s hlo hhi hmod r
  have hp := portOf_status hmod
  refine ⟨?_, fun d => memWrite_port hlo hhi hp d s⟩
  rw [memRead_port hlo hhi hp, show r = s.ppu.statusByte from (statusByte_eq s.ppu).symm]
  rfl

/-! ## The data port -/

/-- The step of `v` after an access of the data port, in integers (46_ppu_ports.md R346). -/
theorem incV_eq (u : Ppu) :
    u.incV = { u with v := BitVec.ofNat 15 (u.v.toNat + if u.ctrl.getLsbD 2 then 32 else 1) } := by
  have hv : u.v + (if u.ctrl.getLsbD 2 then 32 else 1) =
      BitVec.ofNat 15 (u.v.toNat + if u.ctrl.getLsbD 2 then 32 else 1) := by
    rw [BitVec.ofNat_add, BitVec.ofNat_toNat, BitVec.setWidth_eq]
    split <;> rfl
  rw [Ppu.incV, hv]

/-- Settles O47: the port's write and the two cases of its read, with the step of `v` in integers. -/
theorem dataPort : Obligations.DataPort := by
  intro a s hlo hhi hmod mir va next
  have hp := portOf_data hmod
  refine ⟨fun d => ?write, fun hva => ?buffered, fun hva => ?palette⟩
  case write =>
    obtain ⟨pt, nt, pal, hw⟩ := vramWrite_state mir { s.ppu with latch := d } va d
    rw [memWrite_port hlo hhi hp, hw]
    change Host.Outcome.next { s with ppu := (vramWrite mir { s.ppu with latch := d } va d).incV } = _
    rw [hw, incV_eq]
  case buffered =>
    rw [memRead_port hlo hhi hp]
    simp only [portRead, readData, Ppu.dataAddr, incV_eq]
    rw [if_pos hva]
  case palette =>
    rw [memRead_port hlo hhi hp]
    simp only [portRead, readData, Ppu.dataAddr, incV_eq]
    rw [if_neg (Nat.not_lt.mpr hva)]

/-! ## The scroll and the address ports -/

/-- Settles O48: each write puts fields of the data byte into `t`. -/
theorem scrollAndAddressPorts : Obligations.ScrollAndAddressPorts := by
  intro a d s hlo hhi u
  refine ⟨fun hmod hw => ?horizontal, fun hmod hw => ?vertical, fun hmod hw => ?high, fun hmod hw => ?low⟩
  case horizontal =>
    refine ⟨putField u.t 0 5 ((d >>> 3).setWidth 15), ?_, ?_, ?_⟩
    · rw [memWrite_port hlo hhi (portOf_scroll hmod)]
      simp only [portWrite, writeScroll]
      rw [if_neg (by simp [show s.ppu.w = false from hw])]
      rfl
    · rw [extractLsb'_putField (by decide), extractLsb'_setWidth_shift (by decide)]
    · exact extractLsb'_putField_other (by decide) (by decide) _ _
  case vertical =>
    refine ⟨putField (putField u.t 12 3 (d.setWidth 15)) 5 5 ((d >>> 3).setWidth 15), ?_, ?_, ?_, ?_, ?_⟩
    · rw [memWrite_port hlo hhi (portOf_scroll hmod)]
      simp only [portWrite, writeScroll]
      rw [if_pos hw]
    · rw [extractLsb'_putField_other (by decide) (by decide), extractLsb'_putField (by decide),
        extractLsb'_setWidth (by decide)]
    · rw [extractLsb'_putField (by decide), extractLsb'_setWidth_shift (by decide)]
    · rw [extractLsb'_putField_other (by decide) (by decide), extractLsb'_putField_other (by decide) (by decide)]
    · rw [extractLsb'_putField_other (by decide) (by decide), extractLsb'_putField_other (by decide) (by decide)]
  case high =>
    refine ⟨putField (putField u.t 8 6 (d.setWidth 15)) 14 1 0, ?_, ?_, ?_, ?_⟩
    · rw [memWrite_port hlo hhi (portOf_vramAddr hmod)]
      simp only [portWrite, writeVramAddr]
      rw [if_neg (by simp [show s.ppu.w = false from hw])]
    · rw [extractLsb'_putField_other (by decide) (by decide), extractLsb'_putField (by decide),
        extractLsb'_setWidth (by decide)]
    · rw [getLsbD_putField (by decide), if_pos (by decide)]
      rfl
    · rw [extractLsb'_putField_other (by decide) (by decide), extractLsb'_putField_other (by decide) (by decide)]
  case low =>
    refine ⟨putField u.t 0 8 (d.setWidth 15), ?_, ?_, ?_⟩
    · rw [memWrite_port hlo hhi (portOf_vramAddr hmod)]
      simp only [portWrite, writeVramAddr]
      rw [if_pos hw]
    · rw [extractLsb'_putField (by decide), extractLsb'_setWidth (by decide)]
      exact BitVec.extractLsb'_eq_self
    · exact extractLsb'_putField_other (by decide) (by decide) _ _

/-! ## Control, mask and OAM -/

/-- Settles O49: the accesses of the four ports; the control write puts two bits of `t`. -/
theorem controlMaskAndOamPorts : Obligations.ControlMaskAndOamPorts := by
  intro a d s hlo hhi hwf u
  refine ⟨fun hmod => ?control, fun hmod => ?mask, fun hmod => ?oamAddr, fun hmod => ?oamWrite,
    fun hmod => ?oamRead⟩
  case control =>
    refine ⟨putField u.t 10 2 (d.setWidth 15), memWrite_port hlo hhi (portOf_control hmod) d s, ?_, ?_, ?_⟩
    · rw [extractLsb'_putField (by decide), extractLsb'_setWidth (by decide)]
    · exact extractLsb'_putField_other (by decide) (by decide) _ _
    · exact extractLsb'_putField_other (by decide) (by decide) _ _
  case mask => exact memWrite_port hlo hhi (portOf_mask hmod) d s
  case oamAddr => exact memWrite_port hlo hhi (portOf_oamAddr hmod) d s
  case oamWrite =>
    exact ⟨_, memWrite_port hlo hhi (portOf_oamData hmod) d s, rfl, fun k => Memory.get_set hwf _ _ _⟩
  case oamRead => exact memRead_port hlo hhi (portOf_oamData hmod) s

/-! ## The copy to OAM -/

/-- The first `n` stores of the copy (46_ppu_ports.md R352). -/
def copyPrefix (s : State) (page : Byte) (n : Nat) : Memory :=
  (List.range n).foldl
    (fun oam i => Memory.set oam ((s.ppu.oamAddr.toNat + i) % 256) (dmaSource s (page.toNat * 256 + i))) s.ppu.oam

theorem dmaCopy_eq (s : State) (page : Byte) : dmaCopy s page = copyPrefix s page 256 := by
  rw [dmaCopy, copyPrefix]

theorem copyPrefix_succ (s : State) (page : Byte) (n : Nat) :
    copyPrefix s page (n + 1) =
      Memory.set (copyPrefix s page n) ((s.ppu.oamAddr.toNat + n) % 256) (dmaSource s (page.toNat * 256 + n)) := by
  rw [copyPrefix, List.range_succ, List.foldl_append]
  rfl

theorem copyPrefix_wf {s : State} (hwf : Memory.wf 256 s.ppu.oam = true) (page : Byte) (n : Nat) :
    Memory.wf 256 (copyPrefix s page n) = true := by
  induction n with
  | zero => exact hwf
  | succ n ih =>
    rw [copyPrefix_succ]
    exact Memory.wf_set ih (Nat.mod_lt _ (by decide)) _

/-- No two of the 256 stores of the copy hit one byte of OAM. -/
theorem get_copyPrefix {s : State} (hwf : Memory.wf 256 s.ppu.oam = true) (page : Byte) {n k : Nat} (hn : n ≤ 256)
    (hk : k < n) :
    Memory.get (copyPrefix s page n) ((s.ppu.oamAddr.toNat + k) % 256) = dmaSource s (page.toNat * 256 + k) := by
  induction n with
  | zero => exact absurd hk (Nat.not_lt_zero k)
  | succ n ih =>
    have hstep := Memory.get_set (copyPrefix_wf hwf page n) ((s.ppu.oamAddr.toNat + n) % 256)
      ((s.ppu.oamAddr.toNat + k) % 256) (dmaSource s (page.toNat * 256 + n))
    rw [copyPrefix_succ, hstep]
    by_cases hkn : k = n
    · rw [if_pos (by rw [hkn]), hkn]
    · rw [if_neg (by omega), ih (by omega) (by omega)]

/-- The addresses of a copied page are RAM or ROM, so each source byte is what stands there. -/
theorem some_dmaSource {page : Byte} (h : page.toNat < 0x20 ∨ 0x80 ≤ page.toNat) {k : Nat} (hk : k < 256)
    (s : State) :
    some (dmaSource s (page.toNat * 256 + k)) = peek s (BitVec.ofNat 16 (page.toNat * 256 + k)) := by
  have hpage := page.isLt
  have haddr : (BitVec.ofNat 16 (page.toNat * 256 + k)).toNat = page.toNat * 256 + k := by
    rw [BitVec.toNat_ofNat, Nat.mod_eq_of_lt (by omega)]
  suffices hsome : ∃ b, peek s (BitVec.ofNat 16 (page.toNat * 256 + k)) = some b by
    obtain ⟨b, hb⟩ := hsome
    rw [dmaSource, hb]
    rfl
  rcases h with h | h
  · exact ⟨_, peek_below_ports (by omega) s⟩
  · rw [peek, route_rom (by omega)]
    exact ⟨_, rfl⟩

/-- Settles O44: the copy of a page that is RAM or ROM is 256 stores to different bytes. -/
theorem oamDmaCopiesAPage : Obligations.OamDmaCopiesAPage := by
  refine fun page s hwf => ⟨fun hpage => ?copied, fun hpage => ?refused⟩
  case copied =>
    have hnext : memWrite 0x4014 page s = .next (Spec.stored 0x4014 page s) :=
      memWrite_storable (fun h => by omega) s
    rw [Spec.stored, if_pos rfl] at hnext
    refine ⟨_, hnext, by dsimp only, fun k hk => ?_⟩
    rw [← some_dmaSource hpage hk, ← get_copyPrefix hwf page (Nat.le_refl 256) hk, ← dmaCopy_eq, Ppu.oamByte]
  case refused => exact memWrite_not_storable (fun h => h ⟨rfl, hpage⟩) s

end Sys2Proof.Machine
end


section
/-! The cells of the video address space (20_memory.md section 3). -/

namespace Sys2Proof.Machine

theorem vramCell_pattern (mir : Mirroring) {a : Nat} (h : a < 0x2000) : vramCell mir a = .pattern a := by
  have ha : a % 0x4000 = a := Nat.mod_eq_of_lt (by omega)
  simp only [vramCell, ha, h, if_true]

/-- The mirror of the nametables from 0x3000 on is 0x1000 further on, four tables of 0x400 (20_memory.md R103). -/
theorem ntramIndex_sub (mir : Mirroring) {a : Nat} (h : 0x1000 ≤ a) : ntramIndex mir (a - 0x1000) = ntramIndex mir a := by
  have htable : (a - 0x1000) / 0x400 % 4 = a / 0x400 % 4 := by omega
  have hoffset : (a - 0x1000) % 0x400 = a % 0x400 := by omega
  simp only [ntramIndex, htable, hoffset]

theorem vramCell_ntram (mir : Mirroring) {a : Nat} (h : 0x2000 ≤ a) (h' : a < 0x3F00) :
    vramCell mir a = .ntram (ntramIndex mir a) := by
  have ha : a % 0x4000 = a := Nat.mod_eq_of_lt (by omega)
  simp only [vramCell, ha, show ¬ a < 0x2000 by omega, h', ntramIndex_sub mir (show 0x1000 ≤ a by omega), if_true,
    if_false, ite_self]

theorem vramCell_palette (mir : Mirroring) {a : Nat} (h : 0x3F00 ≤ a) (h' : a < 0x4000) :
    vramCell mir a = .palette (paletteIndex a) := by
  have ha : a % 0x4000 = a := Nat.mod_eq_of_lt h'
  simp only [vramCell, ha, show ¬ a < 0x2000 by omega, show ¬ a < 0x3000 by omega, show ¬ a < 0x3F00 by omega, if_false]

theorem ntramIndex_eq_iff (mir : Mirroring) (a b : Nat) :
    ntramIndex mir a = ntramIndex mir b ↔
      a % 0x400 = b % 0x400 ∧ (mir = .vertical → a / 0x400 % 2 = b / 0x400 % 2) ∧
        (mir = .horizontal → a / 0x800 % 2 = b / 0x800 % 2) := by
  cases mir <;> simp only [ntramIndex, reduceCtorEq, false_implies, true_implies, true_and, and_true] <;> omega

theorem paletteIndex_eq_iff (a b : Nat) :
    paletteIndex a = paletteIndex b ↔ a % 32 = b % 32 ∨ (a % 4 = 0 ∧ b % 4 = 0 ∧ a % 16 = b % 16) := by
  unfold paletteIndex
  dsimp only
  split <;> split <;> omega

/-- The three ranges of the video space. -/
theorem videoRange_cases (a : Nat) : a < 0x2000 ∨ (0x2000 ≤ a ∧ a < 0x3F00) ∨ 0x3F00 ≤ a := by omega

/-- Inside each range the spec's cells are given by the index of the range, and no cell lies in two ranges. -/
theorem sameVideoCell_iff (mir : Mirroring) {a b : Nat} (ha : a < 0x4000) (hb : b < 0x4000) :
    Spec.SameVideoCell mir a b ↔ vramCell mir a = vramCell mir b := by
  unfold Spec.SameVideoCell
  rcases videoRange_cases a with h | ⟨h, h'⟩ | h <;> rcases videoRange_cases b with g | ⟨g, g'⟩ | g
  case inl.inl =>
    rw [vramCell_pattern mir h, vramCell_pattern mir g, VramCell.pattern.injEq]
    omega
  case inr.inl.inr.inl =>
    rw [vramCell_ntram mir h h', vramCell_ntram mir g g', VramCell.ntram.injEq, ntramIndex_eq_iff]
    simp [h, h', g, g', Nat.not_lt.mpr h, Nat.not_le.mpr h']
  case inr.inr.inr.inr =>
    rw [vramCell_palette mir h ha, vramCell_palette mir g hb, VramCell.palette.injEq, paletteIndex_eq_iff]
    omega
  all_goals
    simp only [vramCell_pattern, vramCell_ntram, vramCell_palette, *, reduceCtorEq, iff_false]
    omega

/-- What the palette keeps of a byte. -/
theorem setWidth_six_eight (d : Byte) : (d.setWidth 6).setWidth 8 = BitVec.ofNat 8 (d.toNat % 64) := by
  apply BitVec.eq_of_toNat_eq
  simp

theorem vramCell_wrap (mir : Mirroring) (a : Nat) : vramCell mir (a + 0x4000) = vramCell mir a := by
  rw [vramCell, vramCell, Nat.add_mod_right]

/-- Settles O50: reads and writes go through the cell of the address. -/
theorem videoSpaceMirrors : Obligations.VideoSpaceMirrors := by
  intro mir u d hwf
  refine ⟨fun a => ?wrap, fun a b ha hb hab => ?same, fun a b ha hb hab => ?other⟩
  case wrap => rw [vramRead, vramRead, vramWrite, vramWrite, vramCell_wrap]; exact ⟨rfl, rfl⟩
  case same =>
    have hcell := (sameVideoCell_iff mir ha hb).mp hab
    refine ⟨by rw [vramRead, vramRead, hcell], ?_⟩
    rw [vramRead_vramWrite hwf, if_pos hcell.symm]
    rcases videoRange_cases a with h | ⟨h, h'⟩ | h
    · rw [vramCell_pattern mir h, if_pos (by omega)]
    · rw [vramCell_ntram mir h h', if_pos h']
    · rw [vramCell_palette mir h ha, if_neg (by omega)]
      exact setWidth_six_eight d
  case other =>
    rw [vramRead_vramWrite hwf, if_neg fun hcell => hab ((sameVideoCell_iff mir ha hb).mpr hcell.symm)]

end Sys2Proof.Machine
end


section
/-! What one dot does to each field of the picture unit (47_ppu_timing_render.md R370, R374). -/

namespace Sys2Proof.Machine

/-! ## The two groups of actions -/

/-- Rows 1 to 4 of 47_ppu_timing_render.md R374: the flags and the pixel. -/
def drawActs (mir : Mirroring) (u : Ppu) : Ppu := actPixel mir (actOverflow (actVblank u))

/-- Rows 5 to 8 of 47_ppu_timing_render.md R374: the updates of `v`. -/
def scrollActs (u : Ppu) : Ppu := actVertical (actHorizontal (actY (actCoarseX u)))

/-- The picture unit of `u` at the position of `w`. -/
def Ppu.atPosition (u w : Ppu) : Ppu := { u with scanline := w.scanline, dot := w.dot }

theorem advance_eq_atPosition (u : Ppu) : advance u = u.atPosition (advance u) := by
  rcases advance_cases u with ⟨-, h⟩ | ⟨-, -, h⟩ | ⟨-, -, h⟩ <;> rw [h] <;> rfl

theorem atPosition_step (mir : Mirroring) (u : Ppu) : u.atPosition (Ppu.step mir u) = advance u := by
  obtain ⟨v, vb, s0, ov, f, h⟩ := Ppu.step_rendered mir u
  rw [h]
  exact (advance_eq_atPosition u).symm

/-- A dot is the actions at the position it enters. -/
theorem step_eq_acts (mir : Mirroring) (u : Ppu) :
    Ppu.step mir u = scrollActs (drawActs mir (u.atPosition (Ppu.step mir u))) := by
  rw [atPosition_step]
  rfl

theorem actCoarseX_eq (u : Ppu) : actCoarseX u =
    { u with v := if u.visible ∧ 1 ≤ u.dot ∧ u.dot ≤ 256 ∧ u.dot % 8 = 0 ∧ u.renderingEnabled then coarseXInc u.v
                  else u.v } := by
  unfold actCoarseX; split <;> rfl

theorem actY_eq (u : Ppu) : actY u =
    { u with v := if u.visible ∧ u.dot = 256 ∧ u.renderingEnabled then yInc u.v else u.v } := by
  unfold actY; split <;> rfl

theorem actHorizontal_eq (u : Ppu) : actHorizontal u =
    { u with v := if (u.visible ∨ u.scanline = 261) ∧ u.dot = 257 ∧ u.renderingEnabled then copyHorizontal u.t u.v
                  else u.v } := by
  unfold actHorizontal; split <;> rfl

theorem actVertical_eq (u : Ppu) : actVertical u =
    { u with v := if u.scanline = 261 ∧ 280 ≤ u.dot ∧ u.dot ≤ 304 ∧ u.renderingEnabled then copyVertical u.t u.v
                  else u.v } := by
  unfold actVertical; split <;> rfl

/-- The updates of `v` write nothing else. -/
theorem scrollActs_eq (u : Ppu) : scrollActs u = { u with v := (scrollActs u).v } := by
  rw [scrollActs, actCoarseX_eq, actY_eq, actHorizontal_eq, actVertical_eq]

/-- A dot is the flags and the pixel at the position it enters, but for `v`. -/
theorem step_eq_drawn (mir : Mirroring) (u : Ppu) :
    Ppu.step mir u = { drawActs mir (u.atPosition (Ppu.step mir u)) with v := (Ppu.step mir u).v } := by
  have h := scrollActs_eq (drawActs mir (u.atPosition (Ppu.step mir u)))
  rwa [← step_eq_acts] at h

/-! ## The three kinds of positions -/

/-- The dots that write a pixel (47_ppu_timing_render.md R374, row 4). -/
def Ppu.OnPixel (u : Ppu) : Prop := u.scanline ≤ 239 ∧ 1 ≤ u.dot ∧ u.dot ≤ 256

/-- The dot that clears the flags (47_ppu_timing_render.md R374, row 2). -/
def Ppu.AtPrerender (u : Ppu) : Prop := u.scanline = 261 ∧ u.dot = 1

/-- Sprite overflow after a dot at the position of `u` (47_ppu_timing_render.md R374, row 3). -/
def overflowAfter (u : Ppu) : Bool :=
  u.spriteOverflow || (decide (u.dot = 1) && u.renderingEnabled && spritesOverflow u u.scanline)

theorem drawActs_of_atPrerender (mir : Mirroring) {u : Ppu} (h : u.AtPrerender) :
    drawActs mir u = { u with vblank := false, sprite0Hit := false, spriteOverflow := false } := by
  obtain ⟨hline, hdot⟩ := h
  simp [drawActs, actVblank, actOverflow, actPixel, Ppu.visible, hline, hdot]

theorem drawActs_of_onPixel (mir : Mirroring) {u : Ppu} (h : u.OnPixel) :
    drawActs mir u = writePixel mir { u with spriteOverflow := overflowAfter u } (u.dot - 1) u.scanline := by
  obtain ⟨hline, hfirst, hlast⟩ := h
  have hflags : actVblank u = u := by
    rw [actVblank, if_neg (by omega), if_neg (by omega)]
  have hover : actOverflow u = { u with spriteOverflow := overflowAfter u } := by
    rw [actOverflow]
    split
    · next hc =>
      obtain ⟨-, hdot, hrender, hmany⟩ := hc
      rw [overflowAfter, hrender, hmany, decide_eq_true hdot, Bool.and_self, Bool.and_self, Bool.or_true]
    · next hc =>
      have hnone : (decide (u.dot = 1) && u.renderingEnabled && spritesOverflow u u.scanline) = false := by
        simpa [Ppu.visible, hline] using hc
      rw [overflowAfter, hnone, Bool.or_false]
  have hvis : ({ u with spriteOverflow := overflowAfter u } : Ppu).visible = true := by
    simpa [Ppu.visible] using hline
  rw [drawActs, hflags, hover, actPixel, if_pos ⟨hvis, hfirst, hlast⟩]

theorem drawActs_of_idle (mir : Mirroring) {u : Ppu} (h : ¬ u.OnPixel) (h' : ¬ u.AtPrerender) :
    drawActs mir u = { u with vblank := decide (u.scanline = 241 ∧ u.dot = 1) || u.vblank } := by
  have hflags : actVblank u = { u with vblank := decide (u.scanline = 241 ∧ u.dot = 1) || u.vblank } := by
    rw [actVblank]
    split
    · next hc => rw [decide_eq_true hc, Bool.true_or]
    · next hc => rw [if_neg (c := u.scanline = 261 ∧ u.dot = 1) h', decide_eq_false hc, Bool.false_or]
  have hover : actOverflow (actVblank u) = actVblank u := by
    rw [hflags, actOverflow, if_neg]
    rintro ⟨hvis, hdot, -⟩
    exact h ⟨of_decide_eq_true hvis, Nat.le_of_eq hdot.symm, by rw [show u.dot = 1 from hdot]; decide⟩
  rw [drawActs, hover, hflags, actPixel, if_neg]
  rintro ⟨hvis, hdot⟩
  exact h ⟨of_decide_eq_true hvis, hdot⟩

/-- The flags and the pixel do not write `v`. -/
theorem drawActs_eq (mir : Mirroring) (u : Ppu) :
    ∃ vb s0 ov f, drawActs mir u = { u with vblank := vb, sprite0Hit := s0, spriteOverflow := ov, frame := f } := by
  by_cases hpre : u.AtPrerender
  · exact ⟨_, _, _, u.frame, drawActs_of_atPrerender mir hpre⟩
  · by_cases hpix : u.OnPixel
    · exact ⟨u.vblank, _, _, _, drawActs_of_onPixel mir hpix⟩
    · exact ⟨_, u.sprite0Hit, u.spriteOverflow, u.frame, drawActs_of_idle mir hpix hpre⟩

/-! ## A dot by the position it enters -/

/-- What a dot leaves besides `v`, by the position it enters. -/
theorem step_of_atPrerender {mir : Mirroring} {u w : Ppu} (hw : Ppu.step mir u = w) (h : w.AtPrerender) :
    w = { u.atPosition w with v := w.v, vblank := false, sprite0Hit := false, spriteOverflow := false } := by
  have hd := step_eq_drawn mir u
  rw [hw, drawActs_of_atPrerender mir (u := u.atPosition w) h] at hd
  exact hd

theorem step_of_onPixel {mir : Mirroring} {u w : Ppu} (hw : Ppu.step mir u = w) (h : w.OnPixel) :
    w = { u.atPosition w with
      v := w.v, spriteOverflow := overflowAfter (u.atPosition w),
      sprite0Hit := (writePixel mir u (w.dot - 1) w.scanline).sprite0Hit,
      frame := (writePixel mir u (w.dot - 1) w.scanline).frame } := by
  have hd := step_eq_drawn mir u
  rw [hw, drawActs_of_onPixel mir (u := u.atPosition w) h] at hd
  exact hd

theorem step_of_idle {mir : Mirroring} {u w : Ppu} (hw : Ppu.step mir u = w) (h : ¬ w.OnPixel)
    (h' : ¬ w.AtPrerender) :
    w = { u.atPosition w with v := w.v, vblank := decide (w.scanline = 241 ∧ w.dot = 1) || u.vblank } := by
  have hd := step_eq_drawn mir u
  rw [hw, drawActs_of_idle mir (u := u.atPosition w) h h'] at hd
  exact hd

/-! ## The statements about the flags and the frame of a dot -/

theorem overflowAfter_iff (u : Ppu) :
    overflowAfter u = true ↔ u.spriteOverflow = true ∨
      (u.dot = 1 ∧ (u.mask.getLsbD 3 = true ∨ u.mask.getLsbD 4 = true) ∧ 8 < Spec.covering u u.scanline) := by
  have hcovers : spriteCovers u u.scanline = fun i => decide (Spec.covers u u.scanline i) := by
    funext i
    rw [spriteCovers, ← Bool.decide_and, decide_eq_decide]
    simp only [Spec.covers, Spec.sprite, Nat.add_zero]
    omega
  simp only [overflowAfter, spritesOverflow, hcovers, Spec.covering, Ppu.renderingEnabled, Bool.or_eq_true,
    Bool.and_eq_true, decide_eq_true_eq, and_assoc]

/-- Settles O51: the three kinds of positions. -/
theorem verticalBlankFlags : Obligations.VerticalBlankFlags := by
  intro mir u
  dsimp only
  generalize hw : Ppu.step mir u = w
  by_cases hpre : w.AtPrerender
  · have h := step_of_atPrerender hw hpre
    refine ⟨fun hv => ?_, fun _ => ?_, fun _ hne => absurd hpre hne, fun hne => absurd hpre hne⟩
    · exact absurd (hv.1.symm.trans hpre.1) (by decide)
    · rw [h]
      exact ⟨rfl, rfl, rfl⟩
  · refine ⟨fun hv => ?_, fun hp => absurd hp hpre, fun hv _ => ?_, fun _ => ?_⟩
    · have hidle : ¬ w.OnPixel := fun hpix => absurd (hv.1 ▸ hpix.1) (by decide)
      have hvb : w.vblank = (decide (w.scanline = 241 ∧ w.dot = 1) || u.vblank) :=
        congrArg Ppu.vblank (step_of_idle hw hidle hpre)
      rw [hvb, decide_eq_true hv, Bool.true_or]
    · by_cases hpix : w.OnPixel
      · have h := step_of_onPixel hw hpix
        refine ⟨(congrArg Ppu.vblank h :), fun hs => ?_⟩
        rw [show w.sprite0Hit = _ from congrArg Ppu.sprite0Hit h]
        simp [writePixel, hs]
      · have h := step_of_idle hw hpix hpre
        have hvb : w.vblank = (decide (w.scanline = 241 ∧ w.dot = 1) || u.vblank) := congrArg Ppu.vblank h
        exact ⟨by rw [hvb, decide_eq_false hv, Bool.false_or], (congrArg Ppu.sprite0Hit h).trans⟩
    · by_cases hpix : w.OnPixel
      · rw [show w.spriteOverflow = _ from congrArg Ppu.spriteOverflow (step_of_onPixel hw hpix)]
        refine (overflowAfter_iff (u.atPosition w)).trans (or_congr_right ?_)
        exact (and_iff_right hpix.1).symm
      · rw [show w.spriteOverflow = u.spriteOverflow from
          (congrArg Ppu.spriteOverflow (step_of_idle hw hpix hpre) :)]
        refine (or_iff_left ?_).symm
        rintro ⟨hline, hdot, -⟩
        exact hpix ⟨hline, Nat.le_of_eq hdot.symm, by rw [hdot]; decide⟩

/-- The raise is at the position entered (47_ppu_timing_render.md R377). -/
theorem raisesNmi_iff (mir : Mirroring) (u : Ppu) :
    raisesNmi (advance u) = true ↔
      (Ppu.step mir u).scanline = 241 ∧ (Ppu.step mir u).dot = 1 ∧ u.ctrl.getLsbD 7 = true := by
  simp only [raisesNmi, Bool.and_eq_true, decide_eq_true_eq, and_assoc]
  have hat := atPosition_step mir u
  generalize Ppu.step mir u = w at hat ⊢
  rw [← hat]
  exact Iff.rfl

theorem dotStep_nmiPending (s : State) :
    (dotStep s).cpu.nmiPending = (s.cpu.nmiPending || raisesNmi (advance s.ppu)) := by
  simp only [dotStep]

/-- Settles O52: the latch takes the raise, and the dot is the step of the picture unit. -/
theorem nmiIsRaisedAtVerticalBlank : Obligations.NmiIsRaisedAtVerticalBlank := by
  refine fun s => ⟨?_, by simp only [dotStep]⟩
  rw [dotStep_nmiPending, dotStep_ppu, Bool.or_eq_true, raisesNmi_iff s.cart.mirroring]

/-! ## What a dot does not write -/

/-- With rendering disabled no action writes `v`. -/
theorem scrollActs_of_disabled {u : Ppu} (h : u.renderingEnabled = false) : scrollActs u = u := by
  have hoff : ¬ u.renderingEnabled = true := by simp [h]
  have columns : actCoarseX u = u := if_neg fun ⟨_, _, _, _, hr⟩ => hoff hr
  have rows : actY u = u := if_neg fun ⟨_, _, hr⟩ => hoff hr
  have horizontal : actHorizontal u = u := if_neg fun ⟨_, _, hr⟩ => hoff hr
  have vertical : actVertical u = u := if_neg fun ⟨_, _, _, hr⟩ => hoff hr
  rw [scrollActs, columns, rows, horizontal, vertical]

theorem Ppu.frame_wf {u : Ppu} (h : u.wf = true) : Frame.wf u.frame = true := by
  obtain ⟨-, -, -, -, hframe, -⟩ := (Ppu.wf_iff u).mp h
  exact hframe

/-- Settles O53: the actions write their own fields only, and the pixel one cell. -/
theorem rendererWritesOnlyItsOwn : Obligations.RendererWritesOnlyItsOwn := by
  intro mir u hwf
  dsimp only
  generalize hw : Ppu.step mir u = w
  refine ⟨?_, fun h3 h4 => ?_, fun y x hcell => ?_⟩
  · obtain ⟨v, vb, s0, ov, f, h⟩ := Ppu.step_rendered mir u
    rw [← atPosition_step mir u, hw] at h
    have hv : w.v = v := congrArg Ppu.v h
    have hvb : w.vblank = vb := congrArg Ppu.vblank h
    have hs0 : w.sprite0Hit = s0 := congrArg Ppu.sprite0Hit h
    have hov : w.spriteOverflow = ov := congrArg Ppu.spriteOverflow h
    have hf : w.frame = f := congrArg Ppu.frame h
    rw [hv, hvb, hs0, hov, hf]
    exact h
  · obtain ⟨vb, s0, ov, f, hd⟩ := drawActs_eq mir (u.atPosition w)
    have hoff : (drawActs mir (u.atPosition w)).renderingEnabled = false := by
      rw [hd]
      exact Bool.or_eq_false_iff.mpr ⟨h3, h4⟩
    have hw' := step_eq_acts mir u
    rw [hw, scrollActs_of_disabled hoff, hd] at hw'
    exact (congrArg Ppu.v hw' :)
  · by_cases hpix : w.OnPixel
    · have hne : ¬(y = w.scanline ∧ x = w.dot - 1) := by
        obtain ⟨hline, hfirst, hlast⟩ := hpix
        omega
      rw [show w.frame = _ from congrArg Ppu.frame (step_of_onPixel hw hpix), writePixel,
        Frame.get_set (Ppu.frame_wf hwf), if_neg hne]
    · by_cases hpre : w.AtPrerender
      · rw [show w.frame = u.frame from (congrArg Ppu.frame (step_of_atPrerender hw hpre) :)]
      · rw [show w.frame = u.frame from (congrArg Ppu.frame (step_of_idle hw hpix hpre) :)]

end Sys2Proof.Machine
end


section
/-! How the renderer moves `v` (47_ppu_timing_render.md section 3). -/

namespace Sys2Proof.Machine

/-! ## The updates of one dot -/

/-- What the updates make of `v` with rendering enabled, by the position (47_ppu_timing_render.md R375). -/
def scrolled (line dot : Nat) (t v : BitVec 15) : BitVec 15 :=
  if line ≤ 239 then
    if dot = 256 then yInc (coarseXInc v)
    else if dot = 257 then copyHorizontal t v
    else if 1 ≤ dot ∧ dot < 256 ∧ dot % 8 = 0 then coarseXInc v
    else v
  else if line = 261 then
    if dot = 257 then copyHorizontal t v
    else if 280 ≤ dot ∧ dot ≤ 304 then copyVertical t v
    else v
  else v

theorem scrollActs_v {u : Ppu} (h : u.renderingEnabled = true) :
    (scrollActs u).v = scrolled u.scanline u.dot u.t u.v := by
  have hren (v : BitVec 15) : ({ u with v := v } : Ppu).renderingEnabled = true := h
  have hvis (v : BitVec 15) : ({ u with v := v } : Ppu).visible = decide (u.scanline ≤ 239) := rfl
  have hvis' : u.visible = decide (u.scanline ≤ 239) := rfl
  rw [scrollActs, actCoarseX_eq, actY_eq, actHorizontal_eq, actVertical_eq]
  simp only [hren, hvis, and_true, decide_eq_true_eq, scrolled]
  by_cases hline : u.scanline ≤ 239
  · have hne : u.scanline ≠ 261 := by omega
    simp only [hline, hne, true_and, false_and, true_or, if_true, if_false]
    by_cases h256 : u.dot = 256
    · simp [h256]
    · have hcolumn : (1 ≤ u.dot ∧ u.dot ≤ 256 ∧ u.dot % 8 = 0) ↔ (1 ≤ u.dot ∧ u.dot < 256 ∧ u.dot % 8 = 0) := by omega
      simp only [h256, hcolumn, if_false]
      by_cases h257 : u.dot = 257
      · simp [h257]
      · simp only [h257, if_false]
  · simp only [hline, false_and, false_or, if_false]
    by_cases hpre : u.scanline = 261
    · simp only [hpre, true_and, if_true]
      by_cases h257 : u.dot = 257
      · simp [h257]
      · simp only [h257, if_false]
    · simp only [hpre, false_and, if_false]

/-- With rendering enabled a dot moves `v` as its position says. -/
theorem step_v_of_enabled {mir : Mirroring} {u w : Ppu} (hw : Ppu.step mir u = w)
    (h : u.mask.getLsbD 3 = true ∨ u.mask.getLsbD 4 = true) : w.v = scrolled w.scanline w.dot u.t u.v := by
  obtain ⟨vb, s0, ov, f, hd⟩ := drawActs_eq mir (u.atPosition w)
  have hren : (drawActs mir (u.atPosition w)).renderingEnabled = true := by
    rw [hd]
    exact Bool.or_eq_true_iff.mpr h
  have hv := step_eq_acts mir u
  rw [hw] at hv
  have hv' := (congrArg Ppu.v hv).trans (scrollActs_v hren)
  rw [hd] at hv'
  exact hv'

/-! ## The two steps, in bit fields -/

theorem toNat_extract (v : BitVec 15) (lo len : Nat) : (v.extractLsb' lo len).toNat = v.toNat / 2 ^ lo % 2 ^ len := by
  rw [BitVec.extractLsb'_toNat, Nat.shiftRight_eq_div_pow]

theorem getLsbD_eq_decide {n : Nat} (v : BitVec n) (k : Nat) : v.getLsbD k = decide (v.toNat / 2 ^ k % 2 = 1) :=
  Nat.testBit_eq_decide_div_mod_eq

theorem extract_congr {v w : BitVec 15} {lo len : Nat} (h : v.toNat / 2 ^ lo % 2 ^ len = w.toNat / 2 ^ lo % 2 ^ len) :
    v.extractLsb' lo len = w.extractLsb' lo len :=
  BitVec.eq_of_toNat_eq (by rw [toNat_extract, toNat_extract, h])

/-- The coarse X part at its last column (47_ppu_timing_render.md R381). -/
theorem coarseXInc_last {v : BitVec 15} (h : (v.extractLsb' 0 5).toNat = 31) :
    coarseXInc v = putField v 0 5 0 ^^^ 0x0400 := if_pos h

theorem coarseXInc_inner {v : BitVec 15} (h : (v.extractLsb' 0 5).toNat ≠ 31) : coarseXInc v = v + 1 := if_neg h

/-- The coarse X step counts 31 round to 0 and toggles the horizontal nametable bit (47_ppu_timing_render.md R381). -/
theorem coarseXInc_fields (v : BitVec 15) :
    let x := (v.extractLsb' 0 5).toNat
    let r := coarseXInc v
    (x = 31 → r.extractLsb' 0 5 = 0 ∧ r.getLsbD 10 = !v.getLsbD 10) ∧
    (x < 31 → (r.extractLsb' 0 5).toNat = x + 1 ∧ r.getLsbD 10 = v.getLsbD 10) ∧
    r.extractLsb' 5 5 = v.extractLsb' 5 5 ∧ r.extractLsb' 11 4 = v.extractLsb' 11 4 := by
  intro x r
  by_cases hx : x = 31
  · have hr : r = _ := coarseXInc_last hx
    rw [hr]
    refine ⟨fun _ => ⟨?_, ?_⟩, fun h => by omega, ?_, ?_⟩
    · rw [BitVec.extractLsb'_xor, extractLsb'_putField (by decide)]; rfl
    · rw [BitVec.getLsbD_xor, getLsbD_putField (by decide), if_neg (by decide)]
      simp
    · rw [BitVec.extractLsb'_xor, extractLsb'_putField_other (by decide) (by decide)]
      exact BitVec.xor_zero
    · rw [BitVec.extractLsb'_xor, extractLsb'_putField_other (by decide) (by decide)]
      exact BitVec.xor_zero
  · have hr : r = _ := coarseXInc_inner hx
    have hv := v.isLt
    have hx' : v.toNat % 32 ≠ 31 := by
      rwa [show x = v.toNat % 32 by rw [← Nat.div_one v.toNat]; exact toNat_extract v 0 5] at hx
    have hr' : r.toNat = v.toNat + 1 := by
      rw [hr, BitVec.toNat_add, Nat.mod_eq_of_lt (by simp; omega)]
      rfl
    refine ⟨fun h => absurd h hx, fun _ => ⟨?_, ?_⟩, extract_congr ?_, extract_congr ?_⟩
    · rw [toNat_extract, hr', show x = _ from toNat_extract v 0 5]
      omega
    · rw [getLsbD_eq_decide, getLsbD_eq_decide, hr', decide_eq_decide]
      omega
    · rw [hr']; omega
    · rw [hr']; omega

/-- `v` with its fine Y part cleared, as the wrap of the fine row leaves it (47_ppu_timing_render.md R382). -/
def clearFineY (v : BitVec 15) : BitVec 15 := putField v 12 3 0

theorem toNat_clearFineY (v : BitVec 15) : (clearFineY v).toNat = v.toNat % 4096 := by
  have hv := (clearFineY v).isLt
  have htop : (clearFineY v).toNat / 2 ^ 12 % 2 ^ 3 = 0 := by
    rw [← toNat_extract, clearFineY, extractLsb'_putField (by decide)]
    rfl
  have hlow : (clearFineY v).toNat / 2 ^ 0 % 2 ^ 12 = v.toNat / 2 ^ 0 % 2 ^ 12 := by
    rw [← toNat_extract, ← toNat_extract, clearFineY, extractLsb'_putField_other (by decide) (by decide)]
  omega

theorem yInc_fine {v : BitVec 15} (h : (v.extractLsb' 12 3).toNat < 7) : yInc v = v + 0x1000 := if_pos h

theorem clearFineY_row (v : BitVec 15) : field (clearFineY v) 5 5 = (v.extractLsb' 5 5).toNat := by
  rw [field, clearFineY, extractLsb'_putField_other (by decide) (by decide)]

theorem yInc_row29 {v : BitVec 15} (h : ¬(v.extractLsb' 12 3).toNat < 7) (hy : (v.extractLsb' 5 5).toNat = 29) :
    yInc v = putField (clearFineY v) 5 5 0 ^^^ 0x0800 :=
  (if_neg h).trans (if_pos ((clearFineY_row v).trans hy))

theorem yInc_row31 {v : BitVec 15} (h : ¬(v.extractLsb' 12 3).toNat < 7) (hy : (v.extractLsb' 5 5).toNat = 31) :
    yInc v = putField (clearFineY v) 5 5 0 :=
  (if_neg h).trans ((if_neg (by rw [← clearFineY, clearFineY_row]; omega)).trans (if_pos ((clearFineY_row v).trans hy)))

theorem yInc_row {v : BitVec 15} (h : ¬(v.extractLsb' 12 3).toNat < 7) (hy : (v.extractLsb' 5 5).toNat ≠ 29)
    (hy' : (v.extractLsb' 5 5).toNat ≠ 31) : yInc v = clearFineY v + 0x20 :=
  (if_neg h).trans ((if_neg (by rwa [← clearFineY, clearFineY_row])).trans
    (if_neg (by rwa [← clearFineY, clearFineY_row])))

/-- `r` is `v` with the fine row counted on, then the row (47_ppu_timing_render.md R382). -/
def RowStepped (v r : BitVec 15) : Prop :=
  let fine := (v.extractLsb' 12 3).toNat
  let y := (v.extractLsb' 5 5).toNat
  (fine < 7 → (r.extractLsb' 12 3).toNat = fine + 1 ∧ r.extractLsb' 5 5 = v.extractLsb' 5 5 ∧
    r.getLsbD 11 = v.getLsbD 11) ∧
  (fine = 7 → r.extractLsb' 12 3 = 0) ∧
  (fine = 7 → y = 29 → r.extractLsb' 5 5 = 0 ∧ r.getLsbD 11 = !v.getLsbD 11) ∧
  (fine = 7 → y = 31 → r.extractLsb' 5 5 = 0 ∧ r.getLsbD 11 = v.getLsbD 11) ∧
  (fine = 7 → y ≠ 29 → y ≠ 31 → (r.extractLsb' 5 5).toNat = y + 1 ∧ r.getLsbD 11 = v.getLsbD 11) ∧
  r.extractLsb' 0 5 = v.extractLsb' 0 5 ∧ r.getLsbD 10 = v.getLsbD 10

section
variable {v : BitVec 15}

theorem rowStepped_fine (hlt : (v.extractLsb' 12 3).toNat < 7) : RowStepped v (yInc v) := by
  have hv := v.isLt
  have hfine := toNat_extract v 12 3
  have hy := toNat_extract v 5 5
  have hr : (yInc v).toNat = v.toNat + 4096 := by
    rw [show yInc v = _ from yInc_fine hlt, BitVec.toNat_add, Nat.mod_eq_of_lt (by simp; omega)]
    rfl
  refine ⟨fun _ => ⟨?_, extract_congr ?_, ?_⟩, fun _ => by omega, fun _ => by omega, fun _ => by omega,
    fun _ => by omega, extract_congr ?_, ?_⟩
  · rw [toNat_extract, hr]; omega
  · rw [hr]; omega
  · rw [getLsbD_eq_decide, getLsbD_eq_decide, hr, decide_eq_decide]; omega
  · rw [hr]; omega
  · rw [getLsbD_eq_decide, getLsbD_eq_decide, hr, decide_eq_decide]; omega

theorem rowStepped_row29 (hlt : ¬(v.extractLsb' 12 3).toNat < 7) (h29 : (v.extractLsb' 5 5).toNat = 29) :
    RowStepped v (yInc v) := by
  have hr : yInc v = _ := yInc_row29 hlt h29
  rw [hr]
  refine ⟨fun h => absurd h hlt, fun _ => ?_, fun _ _ => ⟨?_, ?_⟩, fun _ => by omega, fun _ => by omega, ?_, ?_⟩
  · rw [BitVec.extractLsb'_xor, extractLsb'_putField_other (by decide) (by decide), clearFineY,
      extractLsb'_putField (by decide)]
    rfl
  · rw [BitVec.extractLsb'_xor, extractLsb'_putField (by decide)]
    rfl
  · rw [BitVec.getLsbD_xor, getLsbD_putField (by decide), if_neg (by decide), clearFineY,
      getLsbD_putField (by decide), if_neg (by decide)]
    simp
  · rw [BitVec.extractLsb'_xor, extractLsb'_putField_other (by decide) (by decide), clearFineY,
      extractLsb'_putField_other (by decide) (by decide)]
    exact BitVec.xor_zero
  · rw [BitVec.getLsbD_xor, getLsbD_putField (by decide), if_neg (by decide), clearFineY,
      getLsbD_putField (by decide), if_neg (by decide)]
    simp

theorem rowStepped_row31 (hlt : ¬(v.extractLsb' 12 3).toNat < 7) (h31 : (v.extractLsb' 5 5).toNat = 31) :
    RowStepped v (yInc v) := by
  have hr : yInc v = _ := yInc_row31 hlt h31
  rw [hr]
  refine ⟨fun h => absurd h hlt, fun _ => ?_, fun _ => by omega, fun _ _ => ⟨?_, ?_⟩, fun _ => by omega, ?_, ?_⟩
  · rw [extractLsb'_putField_other (by decide) (by decide), clearFineY, extractLsb'_putField (by decide)]
    rfl
  · rw [extractLsb'_putField (by decide)]
    rfl
  · rw [getLsbD_putField (by decide), if_neg (by decide), clearFineY, getLsbD_putField (by decide),
      if_neg (by decide)]
  · rw [extractLsb'_putField_other (by decide) (by decide), clearFineY,
      extractLsb'_putField_other (by decide) (by decide)]
  · rw [getLsbD_putField (by decide), if_neg (by decide), clearFineY, getLsbD_putField (by decide),
      if_neg (by decide)]

theorem rowStepped_row (hlt : ¬(v.extractLsb' 12 3).toNat < 7) (h29 : (v.extractLsb' 5 5).toNat ≠ 29)
    (h31 : (v.extractLsb' 5 5).toNat ≠ 31) : RowStepped v (yInc v) := by
  have hv := v.isLt
  have hfine := toNat_extract v 12 3
  have hy := toNat_extract v 5 5
  have hr : (yInc v).toNat = v.toNat % 4096 + 32 := by
    rw [show yInc v = _ from yInc_row hlt h29 h31, BitVec.toNat_add, toNat_clearFineY, Nat.mod_eq_of_lt (by simp; omega)]
    rfl
  refine ⟨fun h => absurd h hlt, fun _ => BitVec.eq_of_toNat_eq ?_, fun _ => by omega, fun _ => by omega,
    fun _ _ _ => ⟨?_, ?_⟩, extract_congr ?_, ?_⟩
  · rw [toNat_extract, hr]
    show _ = 0
    omega
  · rw [toNat_extract, hr]; omega
  · rw [getLsbD_eq_decide, getLsbD_eq_decide, hr, decide_eq_decide]; omega
  · rw [hr]; omega
  · rw [getLsbD_eq_decide, getLsbD_eq_decide, hr, decide_eq_decide]; omega

end

theorem yInc_rowStepped (v : BitVec 15) : RowStepped v (yInc v) := by
  by_cases hlt : (v.extractLsb' 12 3).toNat < 7
  · exact rowStepped_fine hlt
  by_cases h29 : (v.extractLsb' 5 5).toNat = 29
  · exact rowStepped_row29 hlt h29
  by_cases h31 : (v.extractLsb' 5 5).toNat = 31
  · exact rowStepped_row31 hlt h31
  · exact rowStepped_row hlt h29 h31

/-- Settles O54: the positions of R375, and the two steps in bit fields. -/
theorem rendererMovesV : Obligations.RendererMovesV := by
  refine ⟨fun mir u hren => ?positions, coarseXInc_fields, yInc_rowStepped⟩
  case positions =>
    dsimp only
    generalize hw : Ppu.step mir u = w
    rw [step_v_of_enabled hw hren, scrolled]
    refine ⟨fun hl h1 hlt hm => ?_, fun hl hd => ?_, fun hl hd => ?_, fun hl h1 h2 => ?_, fun hl hlt hm => ?_,
      fun hl hd => ?_, fun hl hl' => ?_, fun hl hne hd => ?_⟩
    · rw [if_pos hl, if_neg (by omega), if_neg (by omega), if_pos ⟨h1, hlt, hm⟩]
    · rw [if_pos hl, if_pos hd]
    · rcases hl with hl | hl
      · rw [if_pos hl, if_neg (by omega), if_pos hd]
        rfl
      · rw [if_neg (by omega), if_pos hl, if_pos hd]
        rfl
    · rw [if_neg (by omega), if_pos hl, if_neg (by omega), if_pos ⟨h1, h2⟩]
      rfl
    · rw [if_pos hl, if_neg (by omega), if_neg (by omega), if_neg (by omega)]
    · rw [if_pos hl, if_neg (by omega), if_neg (by omega), if_neg (by omega)]
    · rw [if_neg (by omega), if_neg (by omega)]
    · rw [if_neg (by omega), if_pos hl, if_neg hne, if_neg (by omega)]

end Sys2Proof.Machine
end


section
/-! The pixel a dot writes (47_ppu_timing_render.md sections 4 and 5). -/

namespace Sys2Proof.Machine

/-! ## Fields and tiles, in integers -/

theorem field_eq {n : Nat} (v : BitVec n) (lo len : Nat) : field v lo len = v.toNat / 2 ^ lo % 2 ^ len := by
  rw [field, BitVec.extractLsb'_toNat, Nat.shiftRight_eq_div_pow]

/-- The low bits of a word. -/
theorem field_zero {n : Nat} (v : BitVec n) (len : Nat) : field v 0 len = v.toNat % 2 ^ len := by
  rw [field_eq, Nat.pow_zero, Nat.div_one]

theorem toNat_getLsbD (b : Byte) (k : Nat) : (b.getLsbD k).toNat = Spec.bit b k := Nat.toNat_testBit _ _

theorem tilePixel_eq (mir : Mirroring) (u : Ppu) (b : Byte) (k : Nat) (tile : Byte) (row col : Nat) :
    tilePixel mir u (b.getLsbD k) tile row col = Spec.tileColour mir u (Spec.bit b k) tile.toNat row col := by
  simp only [tilePixel, Spec.tileColour, toNat_getLsbD]

/-! ## The background -/

theorem bgPixel_of_hidden (mir : Mirroring) {u : Ppu} (h : u.mask.getLsbD 3 = false) (px : Nat) :
    bgPixel mir u px = { colour := 0, palette := 0 } := by
  rw [bgPixel, if_neg (by rw [h]; exact Bool.false_ne_true)]

theorem attrSel_eq (mir : Mirroring) (u : Ppu) (v : BitVec 15) :
    attrSel mir u v =
      (vramRead mir u (0x23C0 + v.toNat / 1024 % 4 * 0x400 + v.toNat / 128 % 8 * 8 + v.toNat / 4 % 8)).toNat /
        2 ^ (v.toNat / 64 % 2 * 4 + v.toNat / 2 % 2 * 2) % 4 := by
  simp only [attrSel, field_eq, Nat.reducePow]

theorem bgPixel_of_shown (mir : Mirroring) {u : Ppu} (h : u.mask.getLsbD 3 = true) (px : Nat) {v : BitVec 15}
    (hv : v = if u.x.toNat + px % 8 < 8 then u.v else coarseXInc u.v) :
    bgPixel mir u px =
      { colour := Spec.tileColour mir u (Spec.bit u.ctrl 4) (vramRead mir u (0x2000 + v.toNat % 4096)).toNat
          (v.toNat / 4096) ((u.x.toNat + px % 8) % 8),
        palette := attrSel mir u v } := by
  have hv' : (if 8 ≤ u.x.toNat + px % 8 then coarseXInc u.v else u.v) = v := by
    rw [hv]
    simp only [← Nat.not_lt, ite_not]
  have htile : field v 0 12 = v.toNat % 4096 := field_zero v 12
  have hrow : field v 12 3 = v.toNat / 4096 := by
    have := v.isLt
    rw [field_eq]
    omega
  rw [bgPixel, if_pos h]
  simp only [hv', htile, hrow, tilePixel_eq]

/-- Settles O55: the fields of `v` are its integer parts. -/
theorem backgroundPixel : Obligations.BackgroundPixel := by
  intro mir u px col va tile attributes
  refine ⟨fun h => by rw [bgPixel_of_hidden mir h], fun h => ?_⟩
  rw [bgPixel_of_shown mir h px rfl, attrSel_eq]
  exact ⟨rfl, rfl⟩

/-! ## The sprites -/

theorem spriteCovers_iff (u : Ppu) (y i : Nat) : spriteCovers u y i = true ↔ Spec.covers u y i := by
  simp only [spriteCovers, Bool.and_eq_true, decide_eq_true_eq, Spec.covers, Spec.sprite, Nat.add_zero]
  omega

/-- OAM entry `i` is at the pixel `(px, y)` (47_ppu_timing_render.md R391). -/
def spriteHere (u : Ppu) (px y i : Nat) : Prop :=
  Spec.covers u y i ∧ Spec.sprite u i 3 ≤ px ∧ px ≤ Spec.sprite u i 3 + 7

/-- The colour of the pixel of OAM entry `i` there, with its flips (47_ppu_timing_render.md R391). -/
def spriteColour (mir : Mirroring) (u : Ppu) (px y i : Nat) : Nat :=
  let attributes := u.oamByte (4 * i + 2)
  let down := y - (Spec.sprite u i 0 + 1)
  let right := px - Spec.sprite u i 3
  Spec.tileColour mir u (Spec.bit u.ctrl 3) (Spec.sprite u i 1)
    (if attributes.getLsbD 7 then 7 - down else down) (if attributes.getLsbD 6 then 7 - right else right)

theorem spriteAt_of_not_here (mir : Mirroring) {u : Ppu} {px y i : Nat} (h : ¬ spriteHere u px y i) :
    spriteAt mir u px y i = none := by
  rw [spriteAt, if_neg]
  rintro ⟨hcovers, hleft, hright⟩
  exact h ⟨(spriteCovers_iff u y i).mp hcovers, hleft, by rw [Spec.sprite]; omega⟩

theorem spriteAt_of_here (mir : Mirroring) {u : Ppu} {px y i : Nat} (h : spriteHere u px y i) :
    spriteAt mir u px y i =
      if spriteColour mir u px y i = 0 then none
      else some { index := i, colour := spriteColour mir u px y i, palette := (u.oamByte (4 * i + 2)).toNat % 4,
                  behind := (u.oamByte (4 * i + 2)).getLsbD 5 } := by
  obtain ⟨hcovers, hleft, hright⟩ := h
  have hpalette : field (u.oamByte (4 * i + 2)) 0 2 = (u.oamByte (4 * i + 2)).toNat % 4 := field_zero _ 2
  rw [spriteAt, if_pos ⟨(spriteCovers_iff u y i).mpr hcovers, hleft, by rw [Spec.sprite] at hright; omega⟩]
  simp only [tilePixel_eq, hpalette]
  rfl

/-- The first of the entries below `n` that has a pixel (47_ppu_timing_render.md R391). -/
theorem findSome_range_eq_some {α : Type} (f : Nat → Option α) {n i : Nat} (hi : i < n)
    (hfirst : ∀ j, j < i → f j = none) (h : f i ≠ none) : (List.range n).findSome? f = f i := by
  obtain ⟨b, hb⟩ := Option.ne_none_iff_exists'.mp h
  obtain ⟨k, rfl⟩ : ∃ k, n = i + (k + 1) := ⟨n - i - 1, by omega⟩
  have hbefore : (List.range i).findSome? f = none := by
    rw [List.findSome?_eq_none_iff]
    exact fun j hj => hfirst j (List.mem_range.mp hj)
  rw [List.range_add, List.findSome?_append, hbefore, List.range_succ_eq_map, List.map_cons, List.findSome?_cons,
    Nat.add_zero, hb]
  rfl

theorem spPixel_of_hidden (mir : Mirroring) {u : Ppu} (h : u.mask.getLsbD 4 = false) (px y : Nat) :
    spPixel mir u px y = none := by
  rw [spPixel, if_neg (by rw [h]; exact Bool.false_ne_true)]

/-- Settles O56: an entry by where it is, the layer by its first entry. -/
theorem spritePixel : Obligations.SpritePixel := by
  intro mir u px y
  refine ⟨fun i => ?entry, fun h => ?hidden, fun h => ?shown⟩
  case entry =>
    intro attributes down right colour here
    refine ⟨fun hhere hcolour => ?_, fun hnot => ?_⟩
    · rw [spriteAt_of_here mir hhere]
      exact if_neg hcolour
    · by_cases hhere : spriteHere u px y i
      · rw [spriteAt_of_here mir hhere, if_pos]
        exact Decidable.of_not_not fun hcolour => hnot ⟨hhere, hcolour⟩
      · exact spriteAt_of_not_here mir hhere
  case hidden => exact spPixel_of_hidden mir h px y
  case shown =>
    rw [spPixel, if_pos h]
    refine ⟨fun hnone => ?_, fun i hi hsome hfirst => findSome_range_eq_some _ hi hfirst hsome⟩
    rw [List.findSome?_eq_none_iff]
    exact fun i hi => hnone i (List.mem_range.mp hi)

theorem spriteAt_index {mir : Mirroring} {u : Ppu} {px y i : Nat} {sp : SpPixel}
    (h : spriteAt mir u px y i = some sp) : sp.index = i := by
  by_cases hhere : spriteHere u px y i
  · rw [spriteAt_of_here mir hhere] at h
    split at h
    · cases h
    · cases h
      rfl
  · rw [spriteAt_of_not_here mir hhere] at h
    cases h

/-- Where some entry has a pixel, a first one has. -/
theorem exists_first {α : Type} {f : Nat → Option α} {k : Nat} (h : f k ≠ none) :
    ∃ i, i ≤ k ∧ f i ≠ none ∧ ∀ j, j < i → f j = none := by
  induction k using Nat.strongRecOn with
  | ind k ih =>
    by_cases hbefore : ∀ j, j < k → f j = none
    · exact ⟨k, Nat.le_refl k, h, hbefore⟩
    · obtain ⟨j, hj⟩ := Classical.not_forall.mp hbefore
      obtain ⟨hlt, hsome⟩ := Classical.not_imp.mp hj
      obtain ⟨i, hi, hat, hfirst⟩ := ih j hlt hsome
      exact ⟨i, Nat.le_trans hi (Nat.le_of_lt hlt), hat, hfirst⟩

/-- The entry that the sprite layer shows is the first one with a pixel there. -/
theorem spriteAt_of_spPixel {mir : Mirroring} {u : Ppu} {px y : Nat} {sp : SpPixel}
    (h : spPixel mir u px y = some sp) :
    spriteAt mir u px y sp.index = some sp ∧ ∀ j, j < sp.index → spriteAt mir u px y j = none := by
  have hshown : u.mask.getLsbD 4 = true := by
    cases hm : u.mask.getLsbD 4 with
    | true => rfl
    | false => rw [spPixel_of_hidden mir hm] at h; cases h
  rw [spPixel, if_pos hshown] at h
  obtain ⟨k, hk, hsome⟩ := List.exists_of_findSome?_eq_some h
  obtain ⟨i, hi, hat, hfirst⟩ := exists_first (f := spriteAt mir u px y) (k := k)
    (by rw [hsome]; exact Option.some_ne_none sp)
  rw [findSome_range_eq_some _ (Nat.lt_of_le_of_lt hi (List.mem_range.mp hk)) hfirst hat] at h
  rw [spriteAt_index h]
  exact ⟨h, hfirst⟩

/-! ## The sprite-zero hit -/

/-- The sprite layer shows entry 0 exactly where entry 0 has a pixel. -/
theorem spPixel_index_zero {mir : Mirroring} {u : Ppu} (h : u.mask.getLsbD 4 = true) (px y : Nat) :
    (spPixel mir u px y).map (·.index) = some 0 ↔ (spriteAt mir u px y 0).isSome = true := by
  constructor
  · intro hmap
    obtain ⟨sp, hsp, hindex⟩ := Option.map_eq_some_iff.mp hmap
    obtain ⟨hat, -⟩ := spriteAt_of_spPixel hsp
    rw [hindex] at hat
    rw [hat]
    rfl
  · intro hsome
    obtain ⟨sp, hsp⟩ := Option.isSome_iff_exists.mp hsome
    have hfirst := findSome_range_eq_some (spriteAt mir u px y) (n := 64) (i := 0) (by decide)
      (fun j hj => absurd hj (Nat.not_lt_zero j)) (by rw [hsp]; exact Option.some_ne_none sp)
    rw [spPixel, if_pos h, hfirst, hsp]
    exact congrArg some (spriteAt_index hsp)

theorem writePixel_sprite0Hit (mir : Mirroring) (u : Ppu) (px y : Nat) :
    (writePixel mir u px y).sprite0Hit = true ↔
      u.sprite0Hit = true ∨
      (u.mask.getLsbD 3 = true ∧ u.mask.getLsbD 4 = true ∧ (spriteAt mir u px y 0).isSome = true ∧
        (bgPixel mir u px).colour ≠ 0) := by
  simp only [writePixel, Bool.or_eq_true, Bool.and_eq_true, decide_eq_true_eq, and_assoc]
  refine or_congr_right (and_congr_right fun _ => and_congr_right fun h4 => and_congr_left fun _ => ?_)
  exact spPixel_index_zero h4 px y

/-- Settles O57: the pixel's test, and the pixel of a dot. -/
theorem spriteZeroHit : Obligations.SpriteZeroHit := by
  refine ⟨writePixel_sprite0Hit, fun mir u => ?_⟩
  dsimp only
  generalize hw : Ppu.step mir u = w
  refine ⟨fun hline hfirst hlast => (congrArg Ppu.sprite0Hit (step_of_onPixel hw ⟨hline, hfirst, hlast⟩) :),
    fun hidle hhit => ?_⟩
  by_cases hpre : w.AtPrerender
  · have hclear : w.sprite0Hit = false := (congrArg Ppu.sprite0Hit (step_of_atPrerender hw hpre) :)
    rw [hclear] at hhit
    cases hhit
  · have hkeep : w.sprite0Hit = u.sprite0Hit := (congrArg Ppu.sprite0Hit (step_of_idle hw hidle hpre) :)
    exact hkeep ▸ hhit

/-! ## The pixel shown -/

theorem get_writePixel_frame {u : Ppu} (hwf : u.wf = true) (mir : Mirroring) (px y : Nat) :
    Frame.get (writePixel mir u px y).frame y px =
      BitVec.ofNat 6 (vramRead mir u (colourAddr (bgPixel mir u px) (spPixel mir u px y))).toNat := by
  rw [writePixel, Frame.get_set (Ppu.frame_wf hwf), if_pos ⟨rfl, rfl⟩]
  rfl

/-- Settles O58: the colour address by the two layers. -/
theorem pixelShowsTheWinningLayer : Obligations.PixelShowsTheWinningLayer := by
  refine ⟨fun mir u => ?dot, fun mir u px y hwf => ?layers⟩
  case dot =>
    dsimp only
    generalize hw : Ppu.step mir u = w
    exact fun hline hfirst hlast => (congrArg Ppu.frame (step_of_onPixel hw ⟨hline, hfirst, hlast⟩) :)
  case layers =>
    intro bg shown cell
    have hshown : shown = cell (colourAddr bg (spPixel mir u px y)) := get_writePixel_frame hwf mir px y
    refine ⟨fun h => congrArg BgPixel.colour (bgPixel_of_hidden mir h px), fun h => spPixel_of_hidden mir h px y,
      fun hbg hsp => ?_, fun hbg hsp => ?_, fun sp hsp hfront => ?_, fun sp hsp hbg hbehind => ?_,
      fun sp hsp => spriteAt_of_spPixel hsp⟩
    · rw [hshown, hsp]
      exact congrArg cell (if_pos hbg)
    · rw [hshown, hsp]
      exact congrArg cell (if_neg hbg)
    · rw [hshown, hsp]
      refine congrArg cell (if_neg ?_)
      rintro ⟨hbg, hbehind⟩
      rcases hfront with h | h
      · exact hbg h
      · exact absurd (h.symm.trans hbehind) Bool.false_ne_true
    · rw [hshown, hsp]
      exact congrArg cell ((if_pos ⟨hbg, hbehind⟩).trans (if_neg hbg))

end Sys2Proof.Machine
end


section
/-! The host's `reset` and `load_rom` (10_state.md section 7, 48_system_driver.md section 2). -/

namespace Sys2Proof.Machine

/-- Settles O15: the reset vector stands in ROM, so reading it is reading the cartridge. -/
theorem resetGivesTheResetValues : Obligations.ResetGivesTheResetValues := by
  intro s init t
  have hcart : t.cart = s.cart := rfl
  have hpc : word (memRead 0xFFFD t).1 (memRead 0xFFFC t).1 = s.cart.resetPc := by
    rw [memRead_of_route_rom (route_rom (by decide)), memRead_of_route_rom (route_rom (by decide)), hcart]
    rfl
  rw [hpc]
  exact ⟨rfl, rfl, rfl, rfl, rfl, rfl, rfl, rfl, rfl, rfl, rfl, rfl, rfl, rfl, rfl, rfl, rfl, rfl, rfl, rfl, rfl, rfl,
    rfl, rfl, rfl⟩

/-! ## The block counts of an image -/

theorem prgBlocksOf_eq_some_iff {n : Byte} {p : PrgBlocks} :
    prgBlocksOf n = some p ↔ (n.toNat = 1 ∧ p = .one) ∨ (n.toNat = 2 ∧ p = .two) := by
  have h1 : n = 1 ↔ n.toNat = 1 := BitVec.toNat_eq
  have h2 : n = 2 ↔ n.toNat = 2 := BitVec.toNat_eq
  simp only [prgBlocksOf, h1, h2]
  by_cases hone : n.toNat = 1
  · simp [hone, eq_comm]
  · by_cases htwo : n.toNat = 2
    · simp [htwo, eq_comm]
    · simp [hone, htwo]

theorem chrBlocksOf_eq_some_iff {n : Byte} {k : Nat} :
    chrBlocksOf n = some k ↔ (n.toNat = 0 ∨ n.toNat = 1) ∧ k = n.toNat := by
  have h0 : n = 0 ↔ n.toNat = 0 := BitVec.toNat_eq
  have h1 : n = 1 ↔ n.toNat = 1 := BitVec.toNat_eq
  simp only [chrBlocksOf, h0, h1]
  by_cases hzero : n.toNat = 0
  · simp [hzero, eq_comm]
  · by_cases hone : n.toNat = 1
    · simp [hone, eq_comm]
    · simp [hzero, hone]

theorem prgBytes_of_prgBlocksOf {n : Byte} {p : PrgBlocks} (h : prgBlocksOf n = some p) :
    prgBytes p = 16384 * n.toNat := by
  rcases prgBlocksOf_eq_some_iff.mp h with ⟨hn, rfl⟩ | ⟨hn, rfl⟩ <;> rw [prgBytes, hn]

/-- The accepted images and the cartridge in each (48_system_driver.md R427). -/
theorem parseImage_eq_ok_iff {bytes : List Byte} {c : Cartridge} :
    parseImage bytes = .ok c ↔
      16 ≤ bytes.length ∧ bytes.take 4 = [0x4E, 0x45, 0x53, 0x1A] ∧
        ∃ p k, prgBlocksOf (bytes.getD 4 0) = some p ∧ chrBlocksOf (bytes.getD 5 0) = some k ∧
          16 + prgBytes p + 8192 * k ≤ bytes.length ∧ c = cartridgeOf bytes p k (bytes.getD 6 0) := by
  rw [parseImage]
  by_cases hlen : bytes.length < 16
  · rw [if_pos hlen]
    exact ⟨nofun, fun ⟨h, _⟩ => by omega⟩
  by_cases hsig : bytes.take 4 = [0x4E, 0x45, 0x53, 0x1A]
  · rw [if_neg hlen, if_neg (fun hne => hne hsig)]
    cases hp : prgBlocksOf (bytes.getD 4 0) with
    | none => exact ⟨nofun, fun ⟨_, _, _, _, h, _⟩ => nomatch h⟩
    | some p =>
      cases hk : chrBlocksOf (bytes.getD 5 0) with
      | none => exact ⟨nofun, fun ⟨_, _, _, _, _, h, _⟩ => nomatch h⟩
      | some k =>
        dsimp only
        split
        · next hshort =>
          refine ⟨nofun, ?_⟩
          rintro ⟨-, -, p', k', hp', hk', hall, -⟩
          cases hp'
          cases hk'
          omega
        · next hall =>
          constructor
          · intro hc
            exact ⟨Nat.le_of_not_lt hlen, hsig, p, k, rfl, rfl, Nat.le_of_not_lt hall, (Except.ok.inj hc).symm⟩
          · rintro ⟨-, -, p', k', hp', hk', -, rfl⟩
            cases hp'
            cases hk'
            rfl
  · rw [if_neg hlen, if_pos hsig]
    exact ⟨nofun, fun ⟨_, h, _⟩ => absurd h hsig⟩

/-! ## The regions of an image -/

/-- The bytes of a region of `n` bytes from `start` on. -/
theorem get_region (bytes : List Byte) (start : Nat) {n k : Nat} (hk : k < n) :
    Memory.get (Memory.ofBytes 0 ((bytes.drop start).take n)) k = bytes.getD (start + k) 0 := by
  have h := Memory.get_ofBytes ((bytes.drop start).take n) 0 k
  rw [Nat.zero_add] at h
  rw [h, List.getD_eq_getElem?_getD, List.getD_eq_getElem?_getD, List.getElem?_take_of_lt hk, List.getElem?_drop]
  rfl

theorem wf_region (bytes : List Byte) (start n : Nat) :
    Memory.wf n (Memory.ofBytes 0 ((bytes.drop start).take n)) = true := by
  refine Memory.wfFrom_ofBytes _ 0 n ?_
  rw [Nat.zero_add, List.length_take]
  exact Nat.min_le_left n _

theorem prgLen_cartridgeOf (bytes : List Byte) (p : PrgBlocks) (k : Nat) (flags : Byte) :
    (cartridgeOf bytes p k flags).prgLen = prgBytes p := by
  cases p <;> rfl

theorem cartridgeOf_wf (bytes : List Byte) (p : PrgBlocks) (k : Nat) (flags : Byte) :
    (cartridgeOf bytes p k flags).wf = true := by
  rw [Cartridge.wf, prgLen_cartridgeOf, Bool.and_eq_true]
  refine ⟨wf_region bytes 16 (prgBytes p), ?_⟩
  by_cases hk : k = 0
  · rw [cartridgeOf, if_pos hk]
  · rw [cartridgeOf, if_neg hk]
    exact wf_region bytes (16 + prgBytes p) 8192

/-- The header and the length of an accepted image, in numbers. -/
theorem parseImage_accepts_iff (bytes : List Byte) :
    (∃ c, parseImage bytes = .ok c) ↔
      16 ≤ bytes.length ∧ bytes.take 4 = [0x4E, 0x45, 0x53, 0x1A] ∧
        ((bytes.getD 4 0).toNat = 1 ∨ (bytes.getD 4 0).toNat = 2) ∧
        ((bytes.getD 5 0).toNat = 0 ∨ (bytes.getD 5 0).toNat = 1) ∧
        16 + 16384 * (bytes.getD 4 0).toNat + 8192 * (bytes.getD 5 0).toNat ≤ bytes.length := by
  constructor
  · rintro ⟨c, hc⟩
    obtain ⟨hlen, hsig, p, k, hp, hk, hall, -⟩ := parseImage_eq_ok_iff.mp hc
    obtain ⟨hchr, rfl⟩ := chrBlocksOf_eq_some_iff.mp hk
    rw [prgBytes_of_prgBlocksOf hp] at hall
    exact ⟨hlen, hsig, (prgBlocksOf_eq_some_iff.mp hp).imp And.left And.left, hchr, hall⟩
  · rintro ⟨hlen, hsig, hprg, hchr, hall⟩
    obtain ⟨p, hp⟩ : ∃ p, prgBlocksOf (bytes.getD 4 0) = some p :=
      hprg.elim (fun h => ⟨.one, prgBlocksOf_eq_some_iff.mpr (.inl ⟨h, rfl⟩)⟩)
        fun h => ⟨.two, prgBlocksOf_eq_some_iff.mpr (.inr ⟨h, rfl⟩)⟩
    rw [← prgBytes_of_prgBlocksOf hp] at hall
    exact ⟨_, parseImage_eq_ok_iff.mpr
      ⟨hlen, hsig, p, _, hp, chrBlocksOf_eq_some_iff.mpr ⟨hchr, rfl⟩, hall, rfl⟩⟩

theorem hostReset_hostReset (init : MemInit) (s : State) : hostReset init (hostReset init s) = hostReset init s := rfl

/-- Settles O60: the accepted images, the regions of the cartridge, and the two outcomes of `load_rom`. -/
theorem loadRomReadsTheImage : Obligations.LoadRomReadsTheImage := by
  intro bytes prg chr
  refine ⟨parseImage_accepts_iff bytes, fun c hc => ?regions, fun init ses => ⟨fun c hc => ?good, fun e he => ?bad⟩⟩
  case regions =>
    obtain ⟨-, -, p, k, hp, hk, -, rfl⟩ := parseImage_eq_ok_iff.mp hc
    have hbytes : prgBytes p = 16384 * prg := prgBytes_of_prgBlocksOf hp
    obtain ⟨-, rfl⟩ := chrBlocksOf_eq_some_iff.mp hk
    refine ⟨cartridgeOf_wf _ _ _ _, by rw [prgLen_cartridgeOf, hbytes], fun j hj => ?program, ?noPattern,
      fun m hm j hj => ?pattern, ?mirroring⟩
    case program => exact get_region bytes 16 (hbytes ▸ hj)
    case noPattern =>
      rw [cartridgeOf]
      split
      · next h => exact ⟨fun _ => h, fun _ => rfl⟩
      · next h => exact ⟨nofun, fun h' => absurd h' h⟩
    case pattern =>
      rw [cartridgeOf] at hm
      split at hm
      · cases hm
      · rw [← Option.some.inj hm, get_region bytes _ hj, hbytes]
    case mirroring =>
      rw [cartridgeOf]
      cases (bytes.getD 6 0).getLsbD 0 <;> simp
  case good =>
    cases ses with
    | none => exact ⟨State.powerUp Config.default c init, by rw [Session.loadRom, hc], rfl, rfl⟩
    | some s => exact ⟨_, Session.loadRom_some_ok hc init s, rfl, (hostReset_hostReset init _).symm⟩
  case bad => rw [Session.loadRom, he]

end Sys2Proof.Machine
end
